-- ==== Sys2Proof/Word.lean ====
section
/-! DEFINITION. The widths of the block: bytes, 32-bit bus words and registers, 64-bit counters (10_state R21, R42). -/

namespace Sys2Proof

/-- A byte of a window or of a message. -/
abbrev Byte := BitVec 8

/-- A 32-bit bus word or register (10_state R21; 20_memory R59). -/
abbrev Word := BitVec 32

/-- A 64-bit counter or byte offset: HLEN and OFFSET (10_state R32, R42). -/
abbrev DWord := BitVec 64

end Sys2Proof
end

