-- ==== Sys2Proof/Syntax.lean ====
section
/-! DEFINITION. The instructions: one constructor per row of spec/opcode_table.json. -/

namespace Sys2Proof

/-- The 15 commands of 30_encoding R81 and the two port operations of 30_encoding R85. A command's operands are
implicit (R84); HASH_INIT's selector is part of the row's name (R83). -/
inductive Instr where
  /-- NOP (40_registry R97). -/
  | nop
  /-- HASH_INIT.TAG (41_digest R113). -/
  | hashInitTag
  /-- HASH_INIT.SHA1 (41_digest R113). -/
  | hashInitSha1
  /-- HASH_INIT.SHA256 (41_digest R113). -/
  | hashInitSha256
  /-- HASH_FINAL (41_digest R117). -/
  | hashFinal
  /-- DGST_CMP (41_digest R118). -/
  | dgstCmp
  /-- AES_CBC_ENC (42_cipher R132). -/
  | aesCbcEnc
  /-- AES_CBC_DEC (42_cipher R133). -/
  | aesCbcDec
  /-- AES_CTR (42_cipher R134). -/
  | aesCtr
  /-- CTR_DERIVE (42_cipher R139). -/
  | ctrDerive
  /-- RSA_PUB (43_rsa R155). -/
  | rsaPub
  /-- RSA_PRIV (43_rsa R156). -/
  | rsaPriv
  /-- KEY_CLEAR (43_rsa R157). -/
  | keyClear
  /-- PKCS_VERIFY (44_pkcs1 R173). -/
  | pkcsVerify
  /-- PKCS_SIGN (44_pkcs1 R174). -/
  | pkcsSign
  /-- HDATA32: the port write of four message bytes (41_digest R114). -/
  | hdata32 (v : Word)
  /-- HDATA8: the port write of one message byte, v[7:0] (41_digest R115). -/
  | hdata8 (v : Word)
deriving DecidableEq, Repr

/-- The bus write that carries an instruction: a block offset and the written word (30_encoding R80, R85, R86). -/
structure BusWord where
  off : Nat
  data : Word
deriving DecidableEq, Repr

end Sys2Proof
end

