-- ==== Sys2Proof/Config.lean ====
section
/-! DEFINITION. What the platform or an implementation fixes (00_scope R5) and the values the spec leaves free
(93_implementation_defined U6 to U10). -/

namespace Sys2Proof

/-- The seven signature classes (40_registry R90). -/
inductive SigClass where
  | invalid
  | rsa4096Sha1
  | rsa4096Sha256
  | rsa2048Sha1
  | rsa2048Sha256
  | eccSha1
  | eccSha256
deriving DecidableEq, Repr

/-- Which 8 bytes of a counter hold the block index: parameter CTR_INDEX_FIELD (00_scope R5; 42_cipher R136). -/
inductive IndexField where
  | hiAddr
  | loAddr
deriving DecidableEq, Repr

/-- How CTR mode advances the counter: parameter CTR_INCREMENT (00_scope R5; 42_cipher R138). -/
inductive Increment where
  | inc128
  | inc64
deriving DecidableEq, Repr

/-- The parameters of 00_scope R5. They never change while the block runs (log 4). -/
structure Config where
  /-- BASE: the bus byte address of block offset 0 (20_memory R68). -/
  base : Nat
  /-- SIGTYPE_MAP: the tags that stand for a class; any other tag is INVALID (40_registry R91). -/
  sigtypeMap : List (Word × SigClass)
  /-- DBUF_BYTES: the size of the AES data buffer (10_state R40). -/
  dbufBytes : Nat
  /-- CTR_INDEX_FIELD (42_cipher R136). -/
  indexField : IndexField
  /-- CTR_INCREMENT (42_cipher R138). -/
  increment : Increment
deriving DecidableEq, Repr

/-- The default SIGTYPE_MAP (40_registry R92). PRESUMED: the spec marks these values as general knowledge (log 14). -/
def Config.defaultMap : List (Word × SigClass) :=
  [ (0x00010000, .rsa4096Sha1), (0x00010001, .rsa2048Sha1), (0x00010002, .eccSha1),
    (0x00010003, .rsa4096Sha256), (0x00010004, .rsa2048Sha256), (0x00010005, .eccSha256) ]

/-- The defaults of 00_scope R5. DESIGN CHOICE (unsafe): R5 leaves BASE open and this takes 0 (log 4). -/
def Config.default : Config where
  base := 0
  sigtypeMap := Config.defaultMap
  dbufBytes := 4096
  indexField := .hiAddr
  increment := .inc128

/-- FREE VALUE: what a byte of X or DBUF holds after a reset until something writes it, by the number of the reset and
the block offset (10_state R39, R40; 70_reset R231, R232; 93 U6 to U8; log 1). -/
opaque Config.resetByte : Nat → Nat → Byte

/-- FREE VALUE: what a read of engine storage returns while a command is in flight, fresh for each read
(10_state R43; 93 U9; log 2). -/
opaque Config.busyRead : Nat → Word

/-- FREE VALUE: the words of the chaining value H after HASH_FINAL, by draw and word index
(41_digest R117; 93 U10; log 3). -/
opaque Config.undefinedH : Nat → Nat → Word

end Sys2Proof
end

