-- ==== Sys2Proof/WellFormed.lean ====
section
/-! DEFINITION. Which instructions, carrying bus writes and parameter values the spec admits. -/

namespace Sys2Proof

/-- Every instruction is well formed: a command has no operand field (30_encoding R83, R84) and a port operation takes
any 32-bit value (41_digest R114, R115: HDATA8 ignores v[31:8]). Written arm by arm so that a new constructor must
answer here. -/
def Instr.wellFormed : Instr → Bool
  | .nop => true
  | .hashInitTag => true
  | .hashInitSha1 => true
  | .hashInitSha256 => true
  | .hashFinal => true
  | .dgstCmp => true
  | .aesCbcEnc => true
  | .aesCbcDec => true
  | .aesCtr => true
  | .ctrDerive => true
  | .rsaPub => true
  | .rsaPriv => true
  | .keyClear => true
  | .pkcsVerify => true
  | .pkcsSign => true
  | .hdata32 _ => true
  | .hdata8 _ => true

/-- The offset check on the bus write that carries an instruction: word aligned and inside the 8 KiB (20_memory R59). -/
def BusWord.wellFormed (t : BusWord) : Bool :=
  t.off % 4 == 0 && decide (t.off < 0x2000)

/-- BASE is 8 KiB aligned (00_scope R5; 20_memory R68). -/
def Config.baseOk (c : Config) : Bool :=
  c.base % 0x2000 == 0

/-- DBUF_BYTES is a multiple of 16 from 16 to 4096 (00_scope R5). -/
def Config.dbufOk (c : Config) : Bool :=
  c.dbufBytes % 16 == 0 && decide (16 ≤ c.dbufBytes) && decide (c.dbufBytes ≤ 4096)

/-- The six classes that SIGTYPE_MAP is onto: every class of 40_registry R90 but INVALID. -/
def SigClass.mapped : List SigClass :=
  [.rsa4096Sha1, .rsa4096Sha256, .rsa2048Sha1, .rsa2048Sha256, .eccSha1, .eccSha256]

/-- SIGTYPE_MAP is a partial injective map onto the six classes (00_scope R5): no tag twice, no class twice, each of the
six classes present, INVALID never a value. -/
def Config.mapOk (c : Config) : Bool :=
  decide (c.sigtypeMap.map Prod.fst).Nodup && decide (c.sigtypeMap.map Prod.snd).Nodup &&
  SigClass.mapped.all (fun k => (c.sigtypeMap.map Prod.snd).contains k) &&
  !(c.sigtypeMap.map Prod.snd).contains .invalid

/-- The legal parameter values of 00_scope R5. -/
def Config.wellFormed (c : Config) : Bool :=
  c.baseOk && c.dbufOk && c.mapOk

end Sys2Proof
end

