-- ==== Sys2Proof/Decode.lean ====
section
/-! DEFINITION. Decoding and encoding (30_encoding R80 to R87). Decoding is total on any bus write and rejects by name. -/

namespace Sys2Proof

/-- Why a bus write carries no instruction. -/
inductive Reject where
  /-- A nonzero bit in RSV, bits 31:10 of a command word (30_encoding R82). -/
  | reservedBits
  /-- SEL = 3 with OP = 0x01 (30_encoding R82). -/
  | selThree
  /-- A nonzero SEL with an OP other than 0x01 (30_encoding R82). -/
  | selNotZero
  /-- An OP that the table of 30_encoding R81 does not list (30_encoding R82). -/
  | undefinedOp
  /-- A write whose offset is neither CMD nor a hash data port: it stores a register and is no instruction
  (30_encoding R80, R85). -/
  | notAnInstruction
deriving DecidableEq, Repr

/-- The offset of CMD (10_state R28). -/
def cmdOffset : Nat := 0x00C

/-- The offset of HDATA32 (10_state R41). -/
def hdata32Offset : Nat := 0x028

/-- The offset of HDATA8 (10_state R41). -/
def hdata8Offset : Nat := 0x02C

/-- The OP field, bits 7:0 of a command word (30_encoding R80). -/
def opField (w : Word) : BitVec 8 := w.extractLsb' 0 8

/-- The SEL field, bits 9:8 of a command word (30_encoding R80). -/
def selField (w : Word) : BitVec 2 := w.extractLsb' 8 2

/-- The RSV field, bits 31:10 of a command word (30_encoding R80). -/
def rsvField (w : Word) : BitVec 22 := w.extractLsb' 10 22

/-- HASH_INIT's three selectors (30_encoding R83). -/
def decodeHashInit (sel : BitVec 2) : Except Reject Instr :=
  if sel = 0 then .ok .hashInitTag
  else if sel = 1 then .ok .hashInitSha1
  else if sel = 2 then .ok .hashInitSha256
  else .error .selThree

/-- The operation codes that take no selector (30_encoding R81). -/
def decodePlainOp (op : BitVec 8) : Option Instr :=
  if op = 0x00 then some .nop
  else if op = 0x02 then some .hashFinal
  else if op = 0x03 then some .dgstCmp
  else if op = 0x10 then some .aesCbcEnc
  else if op = 0x11 then some .aesCbcDec
  else if op = 0x12 then some .aesCtr
  else if op = 0x13 then some .ctrDerive
  else if op = 0x20 then some .rsaPub
  else if op = 0x21 then some .rsaPriv
  else if op = 0x22 then some .keyClear
  else if op = 0x30 then some .pkcsVerify
  else if op = 0x31 then some .pkcsSign
  else none

/-- A command word: legal exactly when 30_encoding R81 lists it, otherwise rejected by name (R82). -/
def decodeCmd (w : Word) : Except Reject Instr :=
  if rsvField w ≠ 0 then .error .reservedBits
  else if opField w = 0x01 then decodeHashInit (selField w)
  else
    match decodePlainOp (opField w) with
    | none => .error .undefinedOp
    | some i => if selField w = 0 then .ok i else .error .selNotZero

/-- The instruction a bus write carries: a command word written to CMD (30_encoding R80) or a port write (R85). No mode
bit changes decoding (R87). -/
def decode (t : BusWord) : Except Reject Instr :=
  if t.off = cmdOffset then decodeCmd t.data
  else if t.off = hdata32Offset then .ok (.hdata32 t.data)
  else if t.off = hdata8Offset then .ok (.hdata8 t.data)
  else .error .notAnInstruction

/-- The command word or the operand of an instruction (30_encoding R81, R85). -/
def encodeData : Instr → Word
  | .nop => 0x00000000
  | .hashInitTag => 0x00000001
  | .hashInitSha1 => 0x00000101
  | .hashInitSha256 => 0x00000201
  | .hashFinal => 0x00000002
  | .dgstCmp => 0x00000003
  | .aesCbcEnc => 0x00000010
  | .aesCbcDec => 0x00000011
  | .aesCtr => 0x00000012
  | .ctrDerive => 0x00000013
  | .rsaPub => 0x00000020
  | .rsaPriv => 0x00000021
  | .keyClear => 0x00000022
  | .pkcsVerify => 0x00000030
  | .pkcsSign => 0x00000031
  | .hdata32 v => v
  | .hdata8 v => v

/-- The offset an instruction is written to (30_encoding R80, R85). -/
def encodeOffset : Instr → Nat
  | .hdata32 _ => hdata32Offset
  | .hdata8 _ => hdata8Offset
  | .nop => cmdOffset
  | .hashInitTag => cmdOffset
  | .hashInitSha1 => cmdOffset
  | .hashInitSha256 => cmdOffset
  | .hashFinal => cmdOffset
  | .dgstCmp => cmdOffset
  | .aesCbcEnc => cmdOffset
  | .aesCbcDec => cmdOffset
  | .aesCtr => cmdOffset
  | .ctrDerive => cmdOffset
  | .rsaPub => cmdOffset
  | .rsaPriv => cmdOffset
  | .keyClear => cmdOffset
  | .pkcsVerify => cmdOffset
  | .pkcsSign => cmdOffset

/-- The bus write that carries an instruction (30_encoding R80, R85, R86). -/
def encode (i : Instr) : BusWord where
  off := encodeOffset i
  data := encodeData i

/-- The bus write that an opcode-table row's bits stand for (log 11): a row of 32 bits is a command word written to CMD;
a PORT row's bits are the block offset, and the data word follows in the bits above the first 16. -/
def tableTransfer (nbits w : Nat) : BusWord :=
  if nbits = 32 then { off := cmdOffset, data := BitVec.ofNat 32 w }
  else { off := w % 0x10000, data := BitVec.ofNat 32 (w / 0x10000) }

/-- The instruction the decoder reads from the bits of an opcode-table row. -/
def decodeTableWord (nbits w : Nat) : Option Instr :=
  match decode (tableTransfer nbits w) with
  | .ok i => some i
  | .error _ => none

end Sys2Proof
end

