-- ==== Sys2Proof/Machine/Bytes.lean ====
section
/-! DEFINITION. The integer and byte-string conversions of 00_scope R7 and R8. -/

namespace Sys2Proof.Machine

/-- The byte string whose byte i is `f i`, for i below n. -/
def gen (n : Nat) (f : Nat → Byte) : List Byte := (List.range n).map f

/-- Byte i of a byte string; 0 past its end, which no rule reads. -/
def byteAt (s : List Byte) (i : Nat) : Byte := s.getD i 0

/-- BE(n, x), the n-byte big-endian string of x (00_scope R8). -/
def be : Nat → Nat → List Byte
  | 0, _ => []
  | n + 1, x => BitVec.ofNat 8 (x / 256 ^ n) :: be n x

/-- I2OSP(x, k) = BE(k, x) (00_scope R8). -/
def i2osp (x k : Nat) : List Byte := be k x

/-- OS2IP(s), the integer whose big-endian byte string is s (00_scope R8). -/
def os2ip (s : List Byte) : Nat := s.foldl (fun acc b => acc * 256 + b.toNat) 0

/-- BE32 of the four bytes of s from index i (00_scope R8). -/
def be32At (s : List Byte) (i : Nat) : Word :=
  byteAt s i ++ byteAt s (i + 1) ++ byteAt s (i + 2) ++ byteAt s (i + 3)

/-- The 4-byte big-endian string of a word (41_digest R112). -/
def be32Bytes (w : Word) : List Byte :=
  [w.extractLsb' 24 8, w.extractLsb' 16 8, w.extractLsb' 8 8, w.extractLsb' 0 8]

/-- LE32 of four bytes, the first in bits 7:0 (00_scope R8; 20_memory R56). -/
def le32 (s : List Byte) : Word :=
  byteAt s 3 ++ byteAt s 2 ++ byteAt s 1 ++ byteAt s 0

/-- The four byte lanes of a word, v[7:0] first (20_memory R56). -/
def le32Bytes (v : Word) : List Byte :=
  [v.extractLsb' 0 8, v.extractLsb' 8 8, v.extractLsb' 16 8, v.extractLsb' 24 8]

/-- The bytewise XOR of two byte strings, as long as the shorter one. -/
def xorBytes (a b : List Byte) : List Byte := List.zipWith (· ^^^ ·) a b

/-- n zero bytes, 0^n (00_scope R6). -/
def zeros (n : Nat) : List Byte := List.replicate n 0

/-- ceil(a / b) (00_scope R7). -/
def ceilDiv (a b : Nat) : Nat := (a + (b - 1)) / b

end Sys2Proof.Machine
end

