-- ==== Sys2Proof/Machine/State.lean ====
section
/-! DEFINITION. The machine's state as plain data (10_state), its reset value (70_reset R232), and the reasons a step
can stop. -/

namespace Sys2Proof.Machine

/-- ERRCODE's eight values (60_exceptions R201). No other value occurs (93 U20). -/
inductive ErrCode where
  | none
  | unsupportedSigtype
  | keyInit
  | signing
  | badLength
  | illegalCmd
  | noHashContext
  | rsaInputRange
deriving DecidableEq, Repr

/-- HALG's values: no algorithm, SHA-1, SHA-256 (10_state R26, R44). The value 3 never occurs (93 U21). -/
inductive HashAlg where
  | none
  | sha1
  | sha256
deriving DecidableEq, Repr

/-- How wide and of what kind a bus access is. Only `word` is legal (20_memory R59). -/
inductive Shape where
  /-- A single access of all 32 bits. -/
  | word
  /-- An 8-bit access. -/
  | byte
  /-- A 16-bit access. -/
  | half
  /-- An access of more than 32 bits, by its number of bytes. -/
  | wider (bytes : Nat)
  /-- A 32-bit write with only some byte enables set. -/
  | partialEnables (enables : BitVec 4)
  /-- A burst, by its number of beats. -/
  | burst (beats : Nat)
deriving DecidableEq, Repr

/-- What a bus access does (20_memory R55). -/
inductive BusOp where
  | read
  | write (v : Word)
deriving DecidableEq, Repr

/-- One access of a host bus master, by bus byte address (20_memory R55, R59). -/
structure Access where
  addr : Nat
  shape : Shape
  op : BusOp
deriving DecidableEq, Repr

/-- One primitive statement of a host program (30_encoding R86): WR and RD are `bus`, POLL is `poll`. -/
inductive HostStep where
  | bus (a : Access)
  | poll (addr : Nat) (mask val : Word)
deriving DecidableEq, Repr

/-- A host bus master: the statements it has still to perform, in its program order (20_memory R61), and the words its
RD statements have returned, oldest first. The model's own (log 6). -/
structure Master where
  prog : List HostStep
  reads : List Word
deriving DecidableEq, Repr

/-- Whose step comes next in the one total order of 20_memory R62 (log 5). -/
inductive Turn where
  /-- The host master with this number performs its next statement. -/
  | host (m : Nat)
  /-- The engine completes the command in flight, if there is one (60_exceptions R204, R205). -/
  | engine
  /-- The reset input is asserted (70_reset R230). -/
  | reset
deriving DecidableEq, Repr

/-- The state of 10_state R20, the parameters of 00_scope R5, and the model's own fields. BUSY, IRQ and REGINFO are
computed from it (10_state R30, R45, R46; log 12). -/
structure State where
  /-- The parameters of 00_scope R5 (log 4). -/
  cfg : Config
  /-- CTRL.IE (10_state R25). -/
  ie : Bool
  /-- STATUS.DONE (10_state R26). -/
  done : Bool
  /-- STATUS.ERR (10_state R26). -/
  err : Bool
  /-- STATUS.PERR (10_state R26). -/
  perr : Bool
  /-- STATUS.HACT, the hash context is active (10_state R26, R44). -/
  hact : Bool
  /-- STATUS.DVALID, a private exponent has been supplied (10_state R26; 43_rsa R154). -/
  dvalid : Bool
  /-- STATUS.RESULT (10_state R26). -/
  result : Bool
  /-- STATUS.ERRCODE (60_exceptions R201). -/
  errcode : ErrCode
  /-- STATUS.HALG (10_state R26, R44). -/
  halg : HashAlg
  /-- TAG (10_state R29). -/
  tag : Word
  /-- LEN (10_state R31). -/
  len : Word
  /-- OFFLO (10_state R32). -/
  offlo : Word
  /-- OFFHI (10_state R32). -/
  offhi : Word
  /-- The bytes of all windows, by block offset, in canonical form (10_state R33 to R40; log 15). -/
  mem : List Host.Cell
  /-- H, the chaining value (10_state R44). -/
  h : List Word
  /-- HBUF, the message bytes not yet compressed (10_state R44). -/
  hbuf : List Byte
  /-- HLEN (10_state R42, R44). -/
  hlen : DWord
  /-- PENDING, the command word in flight (10_state R45). -/
  pending : Option Word
  /-- MODEL: the number of the reset the block is in, which selects the free reset bytes (log 1). -/
  resets : Nat
  /-- MODEL: how many free values have been taken (log 2, log 3). -/
  draws : Nat
  /-- MODEL: the host bus masters (log 6). -/
  masters : List Master
  /-- MODEL: whose turn comes next, and after that (log 5). -/
  turns : List Turn
deriving DecidableEq, Repr

/-- Why the machine stops with a fault. -/
inductive Fault where
  /-- Raised by a host step whose access the bus refuses: another width, a burst, partial byte enables, an unaligned
  offset, or an address outside the block (20_memory R59; 93 U11). Safe: the block's state is unchanged and what the host
  does then is the platform's (log 7). -/
  | busError (a : Access)
deriving DecidableEq, Repr

/-- Why the machine has no meaning for an instruction. -/
inductive Refusal where
  /-- Raised by exec's arm for an instruction that has no meaning yet; no arm of this model answers it. Safe. -/
  | notModelled (mnemonic : String)
deriving DecidableEq, Repr

/-- The block after reset (70_reset R232) with these parameters: every field at the value R232 gives; X and DBUF, which
R232 leaves unspecified, list no byte and so read as free values (log 1). The model's own fields start empty
(DESIGN CHOICE, log 5, log 6). -/
def State.resetWith (c : Config) : State where
  cfg := c
  ie := false
  done := false
  err := false
  perr := false
  hact := false
  dvalid := false
  result := false
  errcode := .none
  halg := .none
  tag := 0
  len := 0
  offlo := 0
  offhi := 0
  mem := []
  h := []
  hbuf := []
  hlen := 0
  pending := none
  resets := 0
  draws := 0
  masters := []
  turns := []

/-- The machine right after reset, with the default parameters of 00_scope R5. -/
def State.reset : State := State.resetWith Config.default

end Sys2Proof.Machine
end

