-- ==== Sys2Proof/Machine/Flags.lean ====
section
/-! DEFINITION. The flags: how STATUS is read and written (10_state R26, R27), the interrupt output (R46), and the code
numbers of its fields. -/

namespace Sys2Proof.Machine

/-- The number of an error code (60_exceptions R201). -/
def ErrCode.code : ErrCode → BitVec 8
  | .none => 0x00
  | .unsupportedSigtype => 0x01
  | .keyInit => 0x02
  | .signing => 0x03
  | .badLength => 0x04
  | .illegalCmd => 0x05
  | .noHashContext => 0x06
  | .rsaInputRange => 0x07

/-- The number HALG reads as (10_state R26). -/
def HashAlg.code : HashAlg → BitVec 2
  | .none => 0
  | .sha1 => 1
  | .sha256 => 2

/-- STATUS.BUSY: a command is in flight, exactly when PENDING != none (10_state R26, R45). -/
def State.busy (s : State) : Bool := s.pending.isSome

/-- The interrupt output, IE AND DONE (10_state R46; 60_exceptions R212). -/
def State.irq (s : State) : Bool := s.ie && s.done

/-- STATUS as a read returns it, highest field first: reserved 31:18, HALG 17:16, ERRCODE 15:8, reserved 7, RESULT,
DVALID, HACT, PERR, ERR, DONE, BUSY (10_state R23, R26). -/
def State.statusWord (s : State) : Word :=
  0#14 ++ s.halg.code ++ s.errcode.code ++ 0#1 ++ BitVec.ofBool s.result ++ BitVec.ofBool s.dvalid ++
    BitVec.ofBool s.hact ++ BitVec.ofBool s.perr ++ BitVec.ofBool s.err ++ BitVec.ofBool s.done ++ BitVec.ofBool s.busy

/-- CTRL as a read returns it: IE in bit 0, every other bit reserved (10_state R23, R25). -/
def State.ctrlWord (s : State) : Word := 0#31 ++ BitVec.ofBool s.ie

/-- A write of v to STATUS: bits 1, 2 and 3 clear DONE, ERR and PERR, every other bit is ignored (10_state R27). It is
how a handler acknowledges a completion (60_exceptions R214). -/
def State.writeStatus (v : Word) (s : State) : State :=
  { s with
    done := s.done && !v.getLsbD 1
    err := s.err && !v.getLsbD 2
    perr := s.perr && !v.getLsbD 3 }

/-- A write of v to CTRL: IE is bit 0 (10_state R25). -/
def State.writeCtrl (v : Word) (s : State) : State := { s with ie := v.getLsbD 0 }

end Sys2Proof.Machine
end

