-- ==== Sys2Proof/Machine/Ops.lean ====
section
/-! DEFINITION. The named operations over the windows and the registers: one byte store for all windows in canonical
form, the scrub, issue, completion (normal and with an error), the dropped write, and reset. -/

namespace Sys2Proof.Machine

/-! ### Windows (10_state R21, R33 to R40) -/

/-- The eight windows (10_state R33 to R40). -/
inductive Window where
  | key
  | iv
  | digest
  | ref
  | n
  | d
  | x
  | dbuf
deriving DecidableEq, Repr

/-- The block offset of a window's byte 0 (10_state R21). -/
def Window.base : Window → Nat
  | .key => 0x040
  | .iv => 0x050
  | .digest => 0x060
  | .ref => 0x080
  | .n => 0x400
  | .d => 0x600
  | .x => 0x800
  | .dbuf => 0x1000

/-- The bytes of address space a window takes (10_state R21); DBUF's storage may be shorter (R40). -/
def Window.span : Window → Nat
  | .key => 16
  | .iv => 16
  | .digest => 32
  | .ref => 32
  | .n => 512
  | .d => 512
  | .x => 512
  | .dbuf => 4096

/-- The bytes of storage a window has (10_state R33 to R40). -/
def Window.size (c : Config) : Window → Nat
  | .dbuf => c.dbufBytes
  | w => w.span

/-- Every window, in the order of the map. -/
def Window.all : List Window := [.key, .iv, .digest, .ref, .n, .d, .x, .dbuf]

/-- Whether a block offset lies in a window's address space. -/
def Window.covers (w : Window) (a : Nat) : Bool := decide (w.base ≤ a) && decide (a < w.base + w.span)

/-- Whether a block offset is a byte of some window. -/
def isStorage (a : Nat) : Bool := Window.all.any (·.covers a)

/-- Whether the reset contents of a byte are unspecified: the bytes of X and DBUF (10_state R39, R40). -/
def freeAtReset (a : Nat) : Bool := Window.x.covers a || Window.dbuf.covers a

/-! ### The byte store (log 15) -/

/-- The reset value that the spec states for the byte at a block offset: 0x00 in KEY, IV, DIGEST, REF, N and D
(10_state R33 to R38), none in X and DBUF (R39, R40). An unlisted byte holds its reset value. -/
def Memory.resetValue (a : Nat) : Option Byte := if freeAtReset a then none else some 0

/-- The listed byte at an offset, if there is one. -/
def Memory.lookup : List Host.Cell → Nat → Option Byte
  | [], _ => none
  | c :: cs, a => if c.1 = a then some c.2 else Memory.lookup cs a

/-- The cells that list the bytes bs from offset a on, without those equal to their stated reset value. -/
def Memory.cells : Nat → List Byte → List Host.Cell
  | _, [] => []
  | a, b :: bs => if Memory.resetValue a = some b then Memory.cells (a + 1) bs else (a, b) :: Memory.cells (a + 1) bs

/-- The memory with the bytes bs stored from offset a on. -/
def Memory.store (m : List Host.Cell) (a : Nat) (bs : List Byte) : List Host.Cell :=
  m.filter (fun c => decide (c.1 < a)) ++ Memory.cells a bs ++ m.filter (fun c => decide (a + bs.length ≤ c.1))

/-- The offsets of a memory rise strictly. -/
def Memory.rising : List Host.Cell → Bool
  | [] => true
  | [_] => true
  | c :: c' :: cs => decide (c.1 < c'.1) && Memory.rising (c' :: cs)

/-- The canonical form: offsets strictly rising, every listed offset a byte of a window, and no entry equal to the stated
reset value of its byte (log 15). -/
def Memory.wf (m : List Host.Cell) : Bool :=
  Memory.rising m && m.all (fun c => isStorage c.1 && decide (Memory.resetValue c.1 ≠ some c.2))

/-- The byte at a block offset: the listed one, else its reset value, which for X and DBUF is a free value of this reset
(10_state R39, R40; 70_reset R231, R232; log 1). -/
def State.readByte (s : State) (a : Nat) : Byte :=
  match Memory.lookup s.mem a with
  | some b => b
  | none =>
    match Memory.resetValue a with
    | some b => b
    | none => Config.resetByte s.resets a

/-- The n bytes from block offset a on. -/
def State.readBytes (s : State) (a n : Nat) : List Byte := gen n (fun j => s.readByte (a + j))

/-- The state with the bytes bs stored from block offset a on. -/
def State.storeBytes (a : Nat) (bs : List Byte) (s : State) : State := { s with mem := Memory.store s.mem a bs }

/-- W[0..n) for a window W (00_scope R9). -/
def State.window (s : State) (w : Window) (n : Nat) : List Byte := s.readBytes w.base n

/-- W[0..|bs|) <- bs for a window W (00_scope R9). -/
def State.setWindow (w : Window) (bs : List Byte) (s : State) : State := s.storeBytes w.base bs

/-- Scrub: N and D become zero and DVALID 0 (43_rsa R153, R157). -/
def State.scrub (s : State) : State :=
  { (s.setWindow .n (zeros 512)).setWindow .d (zeros 512) with dvalid := false }

/-! ### Issue, completion, dropped writes, reset -/

/-- Issue of command word v: PENDING <- v, BUSY <- 1, DONE <- 0, nothing else (60_exceptions R203). -/
def State.issue (v : Word) (s : State) : State := { s with pending := some v, done := false }

/-- The completion fields of a command that ends with this code: ERRCODE <- code, ERR <- 1 unless the code is NONE,
DONE <- 1, BUSY <- 0, PENDING <- none (60_exceptions R205). This is the block's one way of raising an error (R200, R201):
no state is saved and no control flow is redirected. -/
def State.complete (code : ErrCode) (s : State) : State :=
  { s with
    errcode := code
    err := s.err || decide (code ≠ .none)
    done := true
    pending := none }

/-- An error completion that changes nothing else (60_exceptions R206). -/
def State.raise (code : ErrCode) (s : State) : State := s.complete code

/-- The completion of an RSA-family command, which scrubs on every outcome (43_rsa R153). -/
def State.completeScrubbed (code : ErrCode) (s : State) : State := s.scrub.complete code

/-- A dropped write: PERR <- 1 and nothing else (60_exceptions R209). -/
def State.dropWrite (s : State) : State := { s with perr := true }

/-- A free value for a read of engine storage while BUSY (10_state R43; log 2). -/
def State.drawRead (s : State) : Word × State := (Config.busyRead s.draws, { s with draws := s.draws + 1 })

/-- H becomes undefined: each of its words a free value (41_digest R117; 93 U10; log 3). -/
def State.undefineH (s : State) : State :=
  { s with h := (List.range s.h.length).map (Config.undefinedH s.draws), draws := s.draws + 1 }

/-- Reset: every piece of block state takes its reset value, X and DBUF new free values, and a command in flight is
abandoned (70_reset R230 to R232; 93 U8). The parameters, the masters and the schedule are outside the block and stay
(log 9). -/
def State.resetBlock (s : State) : State :=
  { State.resetWith s.cfg with
    resets := s.resets + 1
    draws := s.draws
    masters := s.masters
    turns := s.turns }

end Sys2Proof.Machine
end

