-- ==== Sys2Proof/Machine/Registry.lean ====
section
/-! DEFINITION. The Algorithm Registry (40_registry R90 to R96) and NOP (R97). -/

namespace Sys2Proof.Machine

/-- KeySizeFor's values (40_registry R93). -/
inductive KeySize where
  | invalid
  | bits2048
  | bits4096
deriving DecidableEq, Repr

/-- PkcsHashIdFor's values (40_registry R93). -/
inductive HashId where
  | none
  | sha1
  | sha256
deriving DecidableEq, Repr

/-- The class that a tag map gives a tag, INVALID outside the map's domain (40_registry R91). -/
def classIn : List (Word × SigClass) → Word → SigClass
  | [], _ => .invalid
  | e :: es, t => if e.1 = t then e.2 else classIn es t

/-- Class(TAG) for the tag register's value (40_registry R91). -/
def State.sigClass (s : State) : SigClass := classIn s.cfg.sigtypeMap s.tag

/-- KeySizeFor (40_registry R93). -/
def keySizeFor : SigClass → KeySize
  | .rsa4096Sha1 => .bits4096
  | .rsa4096Sha256 => .bits4096
  | .rsa2048Sha1 => .bits2048
  | .rsa2048Sha256 => .bits2048
  | .eccSha1 => .invalid
  | .eccSha256 => .invalid
  | .invalid => .invalid

/-- DigestAlgorithmFor (40_registry R93). -/
def digestAlgorithmFor : SigClass → HashAlg
  | .rsa4096Sha1 => .sha1
  | .rsa4096Sha256 => .sha256
  | .rsa2048Sha1 => .sha1
  | .rsa2048Sha256 => .sha256
  | .eccSha1 => .sha1
  | .eccSha256 => .sha256
  | .invalid => .none

/-- PkcsHashIdFor (40_registry R93). -/
def pkcsHashIdFor : SigClass → HashId
  | .rsa4096Sha1 => .sha1
  | .rsa4096Sha256 => .sha256
  | .rsa2048Sha1 => .sha1
  | .rsa2048Sha256 => .sha256
  | .eccSha1 => .none
  | .eccSha256 => .none
  | .invalid => .none

/-- DigestLengthFor (40_registry R93). -/
def digestLengthFor : SigClass → Nat
  | .rsa4096Sha1 => 20
  | .rsa4096Sha256 => 32
  | .rsa2048Sha1 => 20
  | .rsa2048Sha256 => 32
  | .eccSha1 => 20
  | .eccSha256 => 32
  | .invalid => 0

/-- The number of a class (40_registry R90). -/
def classNumber : SigClass → BitVec 3
  | .invalid => 0
  | .rsa4096Sha1 => 1
  | .rsa4096Sha256 => 2
  | .rsa2048Sha1 => 3
  | .rsa2048Sha256 => 4
  | .eccSha1 => 5
  | .eccSha256 => 6

/-- REGINFO.KSIZE (40_registry R96). -/
def KeySize.code : KeySize → BitVec 2
  | .invalid => 0
  | .bits2048 => 1
  | .bits4096 => 2

/-- REGINFO.HID (40_registry R96). -/
def HashId.code : HashId → BitVec 2
  | .none => 0
  | .sha1 => 1
  | .sha256 => 2

/-- The REGINFO word of a class, highest field first: reserved 31:19, CLASS 18:16, reserved 15:14, DLEN 13:8,
reserved 7:6, HID 5:4, DALG 3:2, KSIZE 1:0 (40_registry R96). -/
def reginfoOf (k : SigClass) : Word :=
  0#13 ++ classNumber k ++ 0#2 ++ BitVec.ofNat 6 (digestLengthFor k) ++ 0#2 ++ (pkcsHashIdFor k).code ++
    (digestAlgorithmFor k).code ++ (keySizeFor k).code

/-- REGINFO as a read returns it (10_state R30; 40_registry R96). -/
def State.reginfo (s : State) : Word := reginfoOf s.sigClass

/-- NOP: a completion and nothing else (40_registry R97). -/
def execNop (s : State) : Host.Outcome State Fault Refusal := .next (s.complete .none)

end Sys2Proof.Machine
end

