-- ==== Sys2Proof/Machine/Operands.lean ====
section
/-! DEFINITION. Every operand form: the implicit operands of the commands (30_encoding R84), the checks they share, and
the registers and windows as a bus access names them (10_state R21). -/

namespace Sys2Proof.Machine

/-! ### Implicit operands -/

/-- OFFSET = OFFHI || OFFLO (10_state R32). -/
def State.offset (s : State) : DWord := s.offhi ++ s.offlo

/-- KEY[0..16) (10_state R33). -/
def State.keyBytes (s : State) : List Byte := s.window .key 16

/-- IV[0..16) (10_state R34). -/
def State.ivBytes (s : State) : List Byte := s.window .iv 16

/-- LEN as a byte count (10_state R31). -/
def State.lenBytes (s : State) : Nat := s.len.toNat

/-- DBUF[0..LEN) (42_cipher R132 to R134). -/
def State.dataBytes (s : State) : List Byte := s.window .dbuf s.lenBytes

/-- BAD_LENGTH for the CBC commands (42_cipher R132, R133). -/
def State.badCbcLength (s : State) : Bool :=
  decide (s.cfg.dbufBytes < s.lenBytes) || decide (s.lenBytes % 16 ≠ 0)

/-- BAD_LENGTH for AES_CTR (42_cipher R134). -/
def State.badCtrLength (s : State) : Bool := decide (s.cfg.dbufBytes < s.lenBytes)

/-- The operand length k in bytes for a key size, none for an invalid one (43_rsa R151). -/
def KeySize.bytes : KeySize → Option Nat
  | .invalid => none
  | .bits2048 => some 256
  | .bits4096 => some 512

/-- N = OS2IP(N[0..k)) (43_rsa R151). -/
def State.modulus (s : State) (k : Nat) : Nat := os2ip (s.window .n k)

/-- D = OS2IP(D[0..k)) (43_rsa R151). -/
def State.exponent (s : State) (k : Nat) : Nat := os2ip (s.window .d k)

/-- X = OS2IP(X[0..k)) (43_rsa R151). -/
def State.xValue (s : State) (k : Nat) : Nat := os2ip (s.window .x k)

/-- Check1 and Check2 of the RSA-family commands, in their order: the operand length k, or the code of the first check
that fails (43_rsa R152). N[0] is the byte at block offset 0x400 (10_state R37). -/
def State.rsaChecks (s : State) : Except ErrCode Nat :=
  match (keySizeFor s.sigClass).bytes with
  | none => .error .unsupportedSigtype
  | some k =>
    if s.readByte 0x400 = 0 ∨ s.modulus k % 2 = 0 then .error .keyInit else .ok k

/-- What Check3 resolves: the operand length, the hash id and the digest h = DIGEST[0..L) (44_pkcs1 R172). -/
structure PkcsOperands where
  k : Nat
  hid : HashId
  digest : List Byte
deriving DecidableEq, Repr

/-- Check1, Check2 and Check3 of the PKCS commands, in their order (44_pkcs1 R172). -/
def State.pkcsChecks (s : State) : Except ErrCode PkcsOperands :=
  match s.rsaChecks with
  | .error e => .error e
  | .ok k =>
    match pkcsHashIdFor s.sigClass with
    | .none => .error .unsupportedSigtype
    | .sha1 => .ok { k := k, hid := .sha1, digest := s.window .digest (digestLengthFor s.sigClass) }
    | .sha256 => .ok { k := k, hid := .sha256, digest := s.window .digest (digestLengthFor s.sigClass) }

/-! ### What a block offset names -/

/-- The register, window byte or hole at a word-aligned block offset (10_state R21). -/
inductive Target where
  | id
  | ctrl
  | status
  | cmd
  | tag
  | reginfo
  | len
  | offlo
  | offhi
  | hdata32
  | hdata8
  | hlenlo
  | hlenhi
  | window (w : Window) (j : Nat)
  | reserved
deriving DecidableEq, Repr

/-- The window word at a block offset, if there is one; the tail of DBUF at or beyond DBUF_BYTES is reserved
(10_state R22, R40). -/
def windowTarget (c : Config) (off : Nat) : List Window → Target
  | [] => .reserved
  | w :: ws =>
    if w.covers off then
      if off - w.base + 4 ≤ w.size c then .window w (off - w.base) else .reserved
    else windowTarget c off ws

/-- The register map (10_state R21). -/
def target (c : Config) (off : Nat) : Target :=
  if off = 0x000 then .id
  else if off = 0x004 then .ctrl
  else if off = 0x008 then .status
  else if off = 0x00C then .cmd
  else if off = 0x010 then .tag
  else if off = 0x014 then .reginfo
  else if off = 0x018 then .len
  else if off = 0x020 then .offlo
  else if off = 0x024 then .offhi
  else if off = 0x028 then .hdata32
  else if off = 0x02C then .hdata8
  else if off = 0x030 then .hlenlo
  else if off = 0x034 then .hlenhi
  else windowTarget c off Window.all

/-- ID's constant, "MKF1" (10_state R24). -/
def idWord : Word := 0x4D4B4631

end Sys2Proof.Machine
end

