-- ==== Sys2Proof/Machine/Cipher.lean ====
section
/-! DEFINITION. The Block Cipher Engine's commands (42_cipher R132 to R139). -/

namespace Sys2Proof.Machine

/-- CBC encryption of n blocks of m under chaining value c: the ciphertext and the last chaining value
(42_cipher R132). -/
def cbcEncrypt (k : List Byte) : Nat → List Byte → List Byte → List Byte × List Byte
  | 0, c, _ => ([], c)
  | n + 1, c, m =>
    let c' := aesE k (xorBytes (m.take 16) c)
    let rest := cbcEncrypt k n c' (m.drop 16)
    (c' ++ rest.1, rest.2)

/-- CBC decryption of n blocks of m after ciphertext block prev: the plaintext and the last ciphertext block read
(42_cipher R133). -/
def cbcDecrypt (k : List Byte) : Nat → List Byte → List Byte → List Byte × List Byte
  | 0, prev, _ => ([], prev)
  | n + 1, prev, m =>
    let c := m.take 16
    let rest := cbcDecrypt k n c (m.drop 16)
    (xorBytes (aesD k c) prev ++ rest.1, rest.2)

/-- Bytes i to i + 7 of a counter read as BE64 (42_cipher R136). -/
def field64 (c : List Byte) (i : Nat) : Nat := os2ip ((c.drop i).take 8)

/-- A counter with its index field replaced; the nonce is kept (42_cipher R136, R137). -/
def setIndex (f : IndexField) (c : List Byte) (x : Nat) : List Byte :=
  match f with
  | .hiAddr => c.take 8 ++ be 8 x
  | .loAddr => be 8 x ++ (c.drop 8).take 8

/-- The index field of a counter (42_cipher R136). -/
def indexOf (f : IndexField) (c : List Byte) : Nat :=
  match f with
  | .hiAddr => field64 c 8
  | .loAddr => field64 c 0

/-- DeriveCounter(c, off): the block index ceil(off/16) is ORed into the index field (42_cipher R137; 90 C5, C6). -/
def deriveCounter (f : IndexField) (c : List Byte) (off : DWord) : List Byte :=
  setIndex f c (indexOf f c ||| ceilDiv off.toNat 16)

/-- Inc(c), the counter advance between the blocks of one AES_CTR (42_cipher R138). -/
def incCounter (cfg : Config) (c : List Byte) : List Byte :=
  match cfg.increment with
  | .inc128 => be 16 ((os2ip c + 1) % 2 ^ 128)
  | .inc64 => setIndex cfg.indexField c ((indexOf cfg.indexField c + 1) % 2 ^ 64)

/-- CTR mode over the next n blocks of m from counter ctr; the last block may be partial (42_cipher R134). -/
def ctrStream (cfg : Config) (k : List Byte) : Nat → List Byte → List Byte → List Byte
  | 0, _, _ => []
  | n + 1, ctr, m =>
    xorBytes (m.take 16) (aesE k ctr) ++ ctrStream cfg k n (incCounter cfg ctr) (m.drop 16)

/-- What AES_CBC_ENC computes from the operands: the ciphertext and the new IV (42_cipher R132). -/
def State.cbcEncResult (s : State) : List Byte × List Byte :=
  cbcEncrypt s.keyBytes (s.lenBytes / 16) s.ivBytes s.dataBytes

/-- What AES_CBC_DEC computes from the operands: the plaintext and the new IV (42_cipher R133). -/
def State.cbcDecResult (s : State) : List Byte × List Byte :=
  cbcDecrypt s.keyBytes (s.lenBytes / 16) s.ivBytes s.dataBytes

/-- What AES_CTR computes from the operands (42_cipher R134). -/
def State.ctrResult (s : State) : List Byte :=
  ctrStream s.cfg s.keyBytes (ceilDiv s.lenBytes 16) (deriveCounter s.cfg.indexField s.ivBytes s.offset) s.dataBytes

/-- AES_CBC_ENC: DBUF[0..LEN) encrypted in place, IV the last ciphertext block (42_cipher R132, R135). -/
def execAesCbcEnc (s : State) : Host.Outcome State Fault Refusal :=
  if s.badCbcLength then .next (s.raise .badLength)
  else .next (((s.setWindow .dbuf s.cbcEncResult.1).setWindow .iv s.cbcEncResult.2).complete .none)

/-- AES_CBC_DEC: DBUF[0..LEN) decrypted in place, IV the last ciphertext block read (42_cipher R133, R135). -/
def execAesCbcDec (s : State) : Host.Outcome State Fault Refusal :=
  if s.badCbcLength then .next (s.raise .badLength)
  else .next (((s.setWindow .dbuf s.cbcDecResult.1).setWindow .iv s.cbcDecResult.2).complete .none)

/-- AES_CTR: DBUF[0..LEN) XORed with the keystream; IV is not written (42_cipher R134). -/
def execAesCtr (s : State) : Host.Outcome State Fault Refusal :=
  if s.badCtrLength then .next (s.raise .badLength)
  else .next ((s.setWindow .dbuf s.ctrResult).complete .none)

/-- CTR_DERIVE: IV <- DeriveCounter(IV, OFFSET) (42_cipher R139). -/
def execCtrDerive (s : State) : Host.Outcome State Fault Refusal :=
  .next ((s.setWindow .iv (deriveCounter s.cfg.indexField s.ivBytes s.offset)).complete .none)

end Sys2Proof.Machine
end

