-- ==== Sys2Proof/Machine/Sha.lean ====
section
/-! DEFINITION. SHA-1 and SHA-256: word functions, constants, compression, padding, the one-shot digest
(41_digest R108 to R112). -/

namespace Sys2Proof.Machine

/-! ### Word functions (41_digest R108; 00_scope R7) -/

/-- ROTL32 (00_scope R7). -/
def rotl (x : Word) (n : Nat) : Word := x <<< n ||| x >>> (32 - n)

/-- ROTR32 (00_scope R7). -/
def rotr (x : Word) (n : Nat) : Word := x >>> n ||| x <<< (32 - n)

def chFn (x y z : Word) : Word := (x &&& y) ^^^ (~~~x &&& z)
def parityFn (x y z : Word) : Word := x ^^^ y ^^^ z
def majFn (x y z : Word) : Word := (x &&& y) ^^^ (x &&& z) ^^^ (y &&& z)
def bigSigma0 (x : Word) : Word := rotr x 2 ^^^ rotr x 13 ^^^ rotr x 22
def bigSigma1 (x : Word) : Word := rotr x 6 ^^^ rotr x 11 ^^^ rotr x 25
def smallSigma0 (x : Word) : Word := rotr x 7 ^^^ rotr x 18 ^^^ x >>> 3
def smallSigma1 (x : Word) : Word := rotr x 17 ^^^ rotr x 19 ^^^ x >>> 10

/-- The 16 words of a 64-byte block, BE32(B[4t..4t+4)) (41_digest R109, R111). -/
def blockWords (b : List Byte) : List Word := (List.range 16).map (fun t => be32At b (4 * t))

/-! ### SHA-1 (41_digest R109) -/

/-- H0_SHA1 (41_digest R109). -/
def h0Sha1 : List Word := [0x67452301, 0xEFCDAB89, 0x98BADCFE, 0x10325476, 0xC3D2E1F0]

/-- K1(t) (41_digest R109). -/
def k1 (t : Nat) : Word :=
  if t < 20 then 0x5A827999 else if t < 40 then 0x6ED9EBA1 else if t < 60 then 0x8F1BBCDC else 0xCA62C1D6

/-- F1(t, b, c, d) (41_digest R109). -/
def f1 (t : Nat) (b c d : Word) : Word :=
  if t < 20 then chFn b c d else if t < 40 then parityFn b c d else if t < 60 then majFn b c d else parityFn b c d

/-- n more schedule words on a schedule held newest first, so that W[t-3] is word 2 (41_digest R109). -/
def extend1 : Nat → List Word → List Word
  | 0, w => w
  | n + 1, w =>
    extend1 n (rotl (w.getD 2 0 ^^^ w.getD 7 0 ^^^ w.getD 13 0 ^^^ w.getD 15 0) 1 :: w)

/-- W[0..80) for a block (41_digest R109). -/
def schedule1 (b : List Byte) : List Word := (extend1 64 (blockWords b).reverse).reverse

/-- SHA-1's working variables. -/
structure Vars1 where
  a : Word
  b : Word
  c : Word
  d : Word
  e : Word
deriving DecidableEq, Repr

/-- One round, for round number t and schedule word w (41_digest R109). -/
def round1 (v : Vars1) (t : Nat) (w : Word) : Vars1 where
  a := rotl v.a 5 + f1 t v.b v.c v.d + v.e + k1 t + w
  b := v.a
  c := rotl v.b 30
  d := v.c
  e := v.d

/-- The rounds from number t on, one for each schedule word (41_digest R109). -/
def rounds1 : Nat → List Word → Vars1 → Vars1
  | _, [], v => v
  | t, w :: ws, v => rounds1 (t + 1) ws (round1 v t w)

/-- Compress1(H, B) (41_digest R109). H has five words whenever a SHA-1 context is active; any other H, which no run
reaches, is left as it is (log 10). -/
def compress1 (h : List Word) (b : List Byte) : List Word :=
  match h with
  | [h0, h1, h2, h3, h4] =>
    let v := rounds1 0 (schedule1 b) { a := h0, b := h1, c := h2, d := h3, e := h4 }
    [h0 + v.a, h1 + v.b, h2 + v.c, h3 + v.d, h4 + v.e]
  | _ => h

/-! ### SHA-256 (41_digest R110, R111) -/

/-- H0_SHA256 (41_digest R110). -/
def h0Sha256 : List Word :=
  [0x6A09E667, 0xBB67AE85, 0x3C6EF372, 0xA54FF53A, 0x510E527F, 0x9B05688C, 0x1F83D9AB, 0x5BE0CD19]

/-- K256[t] for t = 0..63 (41_digest R110). -/
def k256 : List Word :=
  [0x428A2F98, 0x71374491, 0xB5C0FBCF, 0xE9B5DBA5, 0x3956C25B, 0x59F111F1, 0x923F82A4, 0xAB1C5ED5] ++
  [0xD807AA98, 0x12835B01, 0x243185BE, 0x550C7DC3, 0x72BE5D74, 0x80DEB1FE, 0x9BDC06A7, 0xC19BF174] ++
  [0xE49B69C1, 0xEFBE4786, 0x0FC19DC6, 0x240CA1CC, 0x2DE92C6F, 0x4A7484AA, 0x5CB0A9DC, 0x76F988DA] ++
  [0x983E5152, 0xA831C66D, 0xB00327C8, 0xBF597FC7, 0xC6E00BF3, 0xD5A79147, 0x06CA6351, 0x14292967] ++
  [0x27B70A85, 0x2E1B2138, 0x4D2C6DFC, 0x53380D13, 0x650A7354, 0x766A0ABB, 0x81C2C92E, 0x92722C85] ++
  [0xA2BFE8A1, 0xA81A664B, 0xC24B8B70, 0xC76C51A3, 0xD192E819, 0xD6990624, 0xF40E3585, 0x106AA070] ++
  [0x19A4C116, 0x1E376C08, 0x2748774C, 0x34B0BCB5, 0x391C0CB3, 0x4ED8AA4A, 0x5B9CCA4F, 0x682E6FF3] ++
  [0x748F82EE, 0x78A5636F, 0x84C87814, 0x8CC70208, 0x90BEFFFA, 0xA4506CEB, 0xBEF9A3F7, 0xC67178F2]

/-- n more schedule words on a schedule held newest first, so that W[t-2] is word 1 (41_digest R111). -/
def extend256 : Nat → List Word → List Word
  | 0, w => w
  | n + 1, w =>
    extend256 n ((smallSigma1 (w.getD 1 0) + w.getD 6 0 + smallSigma0 (w.getD 14 0) + w.getD 15 0) :: w)

/-- W[0..64) for a block (41_digest R111). -/
def schedule256 (b : List Byte) : List Word := (extend256 48 (blockWords b).reverse).reverse

/-- SHA-256's working variables. -/
structure Vars256 where
  a : Word
  b : Word
  c : Word
  d : Word
  e : Word
  f : Word
  g : Word
  h : Word
deriving DecidableEq, Repr

/-- One round, for constant k and schedule word w (41_digest R111). -/
def round256 (v : Vars256) (k w : Word) : Vars256 :=
  let t1 := v.h + bigSigma1 v.e + chFn v.e v.f v.g + k + w
  let t2 := bigSigma0 v.a + majFn v.a v.b v.c
  { a := t1 + t2, b := v.a, c := v.b, d := v.c, e := v.d + t1, f := v.e, g := v.f, h := v.g }

/-- The rounds, one for each constant and schedule word (41_digest R111). -/
def rounds256 : List Word → List Word → Vars256 → Vars256
  | k :: ks, w :: ws, v => rounds256 ks ws (round256 v k w)
  | _, _, v => v

/-- Compress256(H, B) (41_digest R111). H has eight words whenever a SHA-256 context is active; any other H, which no run
reaches, is left as it is (log 10). -/
def compress256 (h : List Word) (b : List Byte) : List Word :=
  match h with
  | [h0, h1, h2, h3, h4, h5, h6, h7] =>
    let v := rounds256 k256 (schedule256 b)
      { a := h0, b := h1, c := h2, d := h3, e := h4, f := h5, g := h6, h := h7 }
    [h0 + v.a, h1 + v.b, h2 + v.c, h3 + v.d, h4 + v.e, h5 + v.f, h6 + v.g, h7 + v.h]
  | _ => h

/-! ### Either algorithm -/

/-- H0_alg (41_digest R112, R113). -/
def HashAlg.initial : HashAlg → List Word
  | .none => []
  | .sha1 => h0Sha1
  | .sha256 => h0Sha256

/-- Compress_alg (41_digest R116). With no algorithm, which no run reaches, H is left as it is (log 10). -/
def HashAlg.compress : HashAlg → List Word → List Byte → List Word
  | .none, h, _ => h
  | .sha1, h, b => compress1 h b
  | .sha256, h, b => compress256 h b

/-- The digest length in bytes, 20 if the algorithm is SHA-1 and 32 otherwise (41_digest R112, R117). -/
def HashAlg.digestBytes : HashAlg → Nat
  | .none => 32
  | .sha1 => 20
  | .sha256 => 32

/-- Pad(n) for a message of n bytes (41_digest R112); (55 - n) mod 64 is the least non-negative residue. -/
def pad (n : Nat) : List Byte := 0x80#8 :: zeros ((55 + 64 - n % 64) % 64) ++ be 8 (8 * n % 2 ^ 64)

/-- BE32(H[0]) || ... || BE32(H[L/4 - 1]) (41_digest R112, R117). -/
def digestOf (alg : HashAlg) (h : List Word) : List Byte :=
  (List.range (alg.digestBytes / 4)).flatMap (fun i => be32Bytes (h.getD i 0))

/-- H after the n 64-byte blocks at the front of m (41_digest R112). -/
def compressBlocks (alg : HashAlg) : Nat → List Word → List Byte → List Word
  | 0, h, _ => h
  | n + 1, h, m => compressBlocks alg n (alg.compress h (m.take 64)) (m.drop 64)

/-- Digest(alg, m), the digest of a whole message at once (41_digest R112). -/
def digestMessage (alg : HashAlg) (m : List Byte) : List Byte :=
  let padded := m ++ pad m.length
  digestOf alg (compressBlocks alg (padded.length / 64) alg.initial padded)

end Sys2Proof.Machine
end

