-- ==== Sys2Proof/Machine/Digest.lean ====
section
/-! DEFINITION. The Digest Engine's commands and data ports (41_digest R113 to R118). -/

namespace Sys2Proof.Machine

/-- HBUF <- HBUF || b, compressing when 64 bytes are there: the step that Absorb and HASH_FINAL share
(41_digest R116, R117). -/
def State.feed (b : Byte) (s : State) : State :=
  if s.hbuf.length + 1 = 64 then { s with h := s.halg.compress s.h (s.hbuf ++ [b]), hbuf := [] }
  else { s with hbuf := s.hbuf ++ [b] }

/-- Absorb(b): one message byte, counted in HLEN (41_digest R116). -/
def State.absorb (b : Byte) (s : State) : State := { s.feed b with hlen := s.hlen + 1 }

/-- Absorb each byte of a string in order. -/
def State.absorbAll (bs : List Byte) (s : State) : State := bs.foldl (fun t b => t.absorb b) s

/-- Feed each byte of a string in order; padding bytes do not count in HLEN (41_digest R117). -/
def State.feedAll (bs : List Byte) (s : State) : State := bs.foldl (fun t b => t.feed b) s

/-- A new hash context for an algorithm: H <- H0_alg, HBUF empty, HLEN 0, HACT 1, HALG <- alg (41_digest R113). -/
def State.startHash (alg : HashAlg) (s : State) : State :=
  { s with h := alg.initial, hbuf := [], hlen := 0, hact := true, halg := alg }

/-- HASH_INIT with a resolved algorithm: UNSUPPORTED_SIGTYPE when there is none, with the context as it was
(41_digest R113). -/
def hashInit (alg : HashAlg) (s : State) : Host.Outcome State Fault Refusal :=
  match alg with
  | .none => .next (s.raise .unsupportedSigtype)
  | .sha1 => .next ((s.startHash .sha1).complete .none)
  | .sha256 => .next ((s.startHash .sha256).complete .none)

/-- HASH_INIT.TAG: the algorithm of the tag's class (41_digest R113). -/
def execHashInitTag (s : State) : Host.Outcome State Fault Refusal := hashInit (digestAlgorithmFor s.sigClass) s

/-- HASH_INIT.SHA1 (41_digest R113). -/
def execHashInitSha1 (s : State) : Host.Outcome State Fault Refusal := hashInit .sha1 s

/-- HASH_INIT.SHA256 (41_digest R113). -/
def execHashInitSha256 (s : State) : Host.Outcome State Fault Refusal := hashInit .sha256 s

/-- Whether a hash data port takes a write: no command in flight and an active context (41_digest R114, R115). -/
def State.portOpen (s : State) : Bool := !s.busy && s.hact

/-- HDATA32: four message bytes, v[7:0] first; a dropped write when the port is closed (41_digest R114). -/
def execHdata32 (v : Word) (s : State) : Host.Outcome State Fault Refusal :=
  if s.portOpen then .next (s.absorbAll (le32Bytes v)) else .next s.dropWrite

/-- HDATA8: the message byte v[7:0]; a dropped write when the port is closed (41_digest R115). -/
def execHdata8 (v : Word) (s : State) : Host.Outcome State Fault Refusal :=
  if s.portOpen then .next (s.absorb (v.extractLsb' 0 8)) else .next s.dropWrite

/-- The 32 bytes HASH_FINAL leaves in DIGEST: the digest of L bytes, then zeros (41_digest R117). -/
def digestWindow (alg : HashAlg) (h : List Word) : List Byte :=
  digestOf alg h ++ zeros (32 - alg.digestBytes)

/-- HASH_FINAL after its check: pad, write DIGEST, close the context, leave H undefined (41_digest R117). -/
def State.finishHash (s : State) : State :=
  let t := s.feedAll (pad s.hlen.toNat)
  ({ t.setWindow .digest (digestWindow t.halg t.h) with hact := false }).undefineH

/-- HASH_FINAL: NO_HASH_CONTEXT when no context is active, else the digest (41_digest R117). -/
def execHashFinal (s : State) : Host.Outcome State Fault Refusal :=
  if s.hact then .next (s.finishHash.complete .none) else .next (s.raise .noHashContext)

/-- DGST_CMP: RESULT says whether all 32 bytes of DIGEST and REF agree (41_digest R118). -/
def execDgstCmp (s : State) : Host.Outcome State Fault Refusal :=
  .next ({ s with result := decide (s.window .digest 32 = s.window .ref 32) }.complete .none)

end Sys2Proof.Machine
end

