-- ==== Sys2Proof/Machine/Rsa.lean ====
section
/-! DEFINITION. The RSA modular exponentiation engine (43_rsa R150 to R157). -/

namespace Sys2Proof.Machine

/-- The public exponent E_PUB (00_scope R5; 43_rsa R150). -/
def ePub : Nat := 65537

/-- acc times b^e, reduced mod n, by at most `fuel` squarings; exact while e is below 2^fuel (log 16). -/
def modPowFrom (n : Nat) : Nat → Nat → Nat → Nat → Nat
  | 0, _, _, acc => acc
  | fuel + 1, b, e, acc =>
    if e = 0 then acc
    else modPowFrom n fuel (b * b % n) (e / 2) (if e % 2 = 1 then acc * b % n else acc)

/-- RSAEXP(x, e, n) = x^e mod n for an exponent of at most 512 bytes (43_rsa R150; log 16). 0^0 is 1 (R156). -/
def rsaExp (x e n : Nat) : Nat := modPowFrom n 4096 x e (1 % n)

/-- The raw exponentiation that RSA_PUB and RSA_PRIV share once their checks have passed: RSA_INPUT_RANGE when X >= N,
else X[0..k) <- I2OSP(X^e mod N, k); the completion scrubs either way (43_rsa R153, R155, R156). -/
def rawExp (k e : Nat) (s : State) : State :=
  if s.modulus k ≤ s.xValue k then s.completeScrubbed .rsaInputRange
  else (s.setWindow .x (i2osp (rsaExp (s.xValue k) e (s.modulus k)) k)).completeScrubbed .none

/-- RSA_PUB: X <- X^65537 mod N (43_rsa R155). -/
def execRsaPub (s : State) : Host.Outcome State Fault Refusal :=
  match s.rsaChecks with
  | .error c => .next (s.completeScrubbed c)
  | .ok k => .next (rawExp k ePub s)

/-- RSA_PRIV: X <- X^D mod N, SIGNING when no exponent was supplied (43_rsa R154, R156). -/
def execRsaPriv (s : State) : Host.Outcome State Fault Refusal :=
  match s.rsaChecks with
  | .error c => .next (s.completeScrubbed c)
  | .ok k => if s.dvalid then .next (rawExp k (s.exponent k) s) else .next (s.completeScrubbed .signing)

/-- KEY_CLEAR: N and D become zero and DVALID 0; TAG is not read (43_rsa R157). -/
def execKeyClear (s : State) : Host.Outcome State Fault Refusal := .next (s.completeScrubbed .none)

end Sys2Proof.Machine
end

