-- ==== Sys2Proof/Machine/Pkcs.lean ====
section
/-! DEFINITION. PKCS#1 v1.5: encoding, verifier and signer (44_pkcs1 R170 to R174). -/

namespace Sys2Proof.Machine

/-- PFX(hid), the DigestInfo bytes that stand before the digest (44_pkcs1 R170). PFX(none) is never used (R172). -/
def digestInfo : HashId → List Byte
  | .none => []
  | .sha1 => [0x30, 0x21, 0x30, 0x09, 0x06, 0x05, 0x2b, 0x0e, 0x03, 0x02, 0x1a, 0x05, 0x00, 0x04, 0x14]
  | .sha256 =>
    [0x30, 0x31, 0x30, 0x0d, 0x06, 0x09, 0x60, 0x86, 0x48, 0x01, 0x65, 0x03, 0x04, 0x02, 0x01, 0x05, 0x00, 0x04, 0x20]

/-- EM(k, hid, h) = 00 01 || FF^(k - 3 - |T|) || 00 || T with T = PFX(hid) || h (44_pkcs1 R171). -/
def encodedMessage (k : Nat) (hid : HashId) (h : List Byte) : List Byte :=
  [0x00#8, 0x01#8] ++ List.replicate (k - 3 - (digestInfo hid ++ h).length) 0xFF#8 ++ [0x00#8] ++ (digestInfo hid ++ h)

/-- Whether X holds a signature of the digest: S < N and I2OSP(S^65537 mod N, k) = EM (44_pkcs1 R173). -/
def State.signatureMatches (s : State) (o : PkcsOperands) : Bool :=
  decide (s.xValue o.k < s.modulus o.k) &&
  decide (i2osp (rsaExp (s.xValue o.k) ePub (s.modulus o.k)) o.k = encodedMessage o.k o.hid o.digest)

/-- PKCS_VERIFY: RESULT says whether the signature matches; a failing check gives RESULT 0 and its code
(44_pkcs1 R173). -/
def execPkcsVerify (s : State) : Host.Outcome State Fault Refusal :=
  match s.pkcsChecks with
  | .error c => .next ({ s with result := false }.completeScrubbed c)
  | .ok o => .next ({ s with result := s.signatureMatches o }.completeScrubbed .none)

/-- PKCS_SIGN: X[0..k) <- I2OSP(EM^D mod N, k), SIGNING when no exponent was supplied (44_pkcs1 R174). -/
def execPkcsSign (s : State) : Host.Outcome State Fault Refusal :=
  match s.pkcsChecks with
  | .error c => .next (s.completeScrubbed c)
  | .ok o =>
    if s.dvalid then
      .next ((s.setWindow .x
        (i2osp (rsaExp (os2ip (encodedMessage o.k o.hid o.digest)) (s.exponent o.k) (s.modulus o.k)) o.k)).completeScrubbed
          .none)
    else .next (s.completeScrubbed .signing)

end Sys2Proof.Machine
end

