-- ==== Sys2Proof/Machine/Dispatch.lean ====
section
/-! DEFINITION. Which meaning each instruction has: for a command its completion step (60_exceptions R205), for a port
operation the bus write (30_encoding R85). -/

namespace Sys2Proof.Machine

def exec (i : Instr) (s : State) : Host.Outcome State Fault Refusal :=
  match i with
  | .nop => Sys2Proof.Machine.execNop s
  | .hashInitTag => Sys2Proof.Machine.execHashInitTag s
  | .hashInitSha1 => Sys2Proof.Machine.execHashInitSha1 s
  | .hashInitSha256 => Sys2Proof.Machine.execHashInitSha256 s
  | .hashFinal => Sys2Proof.Machine.execHashFinal s
  | .dgstCmp => Sys2Proof.Machine.execDgstCmp s
  | .aesCbcEnc => Sys2Proof.Machine.execAesCbcEnc s
  | .aesCbcDec => Sys2Proof.Machine.execAesCbcDec s
  | .aesCtr => Sys2Proof.Machine.execAesCtr s
  | .ctrDerive => Sys2Proof.Machine.execCtrDerive s
  | .rsaPub => Sys2Proof.Machine.execRsaPub s
  | .rsaPriv => Sys2Proof.Machine.execRsaPriv s
  | .keyClear => Sys2Proof.Machine.execKeyClear s
  | .pkcsVerify => Sys2Proof.Machine.execPkcsVerify s
  | .pkcsSign => Sys2Proof.Machine.execPkcsSign s
  | .hdata32 v => Sys2Proof.Machine.execHdata32 v s
  | .hdata8 v => Sys2Proof.Machine.execHdata8 v s

end Sys2Proof.Machine
end

