-- ==== Sys2Proof/Machine/Bus.lean ====
section
/-! DEFINITION. The agents' steps: a host access (20_memory R55 to R61; 60_exceptions R209, R210), the engine's completion
(60_exceptions R204, R205, R207) and the reset input (70_reset R230), and whose turn it is (20_memory R62). -/

namespace Sys2Proof.Machine

/-! ### Reads -/

/-- A read of engine storage: the stored value when no command is in flight, else a free value (10_state R43). -/
def State.engineRead (v : Word) (s : State) : Word × State := if s.busy then s.drawRead else (v, s)

/-- A read of a window word: KEY and D read 0, REF always its value, the other windows are engine storage
(10_state R33, R38, R43; 20_memory R56). -/
def State.readWindow (w : Window) (j : Nat) (s : State) : Word × State :=
  match w with
  | .key => (0, s)
  | .d => (0, s)
  | .ref => (le32 (s.readBytes (w.base + j) 4), s)
  | .iv => s.engineRead (le32 (s.readBytes (w.base + j) 4))
  | .digest => s.engineRead (le32 (s.readBytes (w.base + j) 4))
  | .n => s.engineRead (le32 (s.readBytes (w.base + j) 4))
  | .x => s.engineRead (le32 (s.readBytes (w.base + j) 4))
  | .dbuf => s.engineRead (le32 (s.readBytes (w.base + j) 4))

/-- What a legal read of a block offset returns, and the state after it, which differs only in the count of free values
taken (10_state R22 to R43; 20_memory R56, R57, R60). -/
def State.busRead (off : Nat) (s : State) : Word × State :=
  match target s.cfg off with
  | .id => (idWord, s)
  | .ctrl => (s.ctrlWord, s)
  | .status => (s.statusWord, s)
  | .cmd => (0, s)
  | .tag => (s.tag, s)
  | .reginfo => (s.reginfo, s)
  | .len => (s.len, s)
  | .offlo => (s.offlo, s)
  | .offhi => (s.offhi, s)
  | .hdata32 => (0, s)
  | .hdata8 => (0, s)
  | .hlenlo => s.engineRead (s.hlen.extractLsb' 0 32)
  | .hlenhi => s.engineRead (s.hlen.extractLsb' 32 32)
  | .window w j => s.readWindow w j
  | .reserved => (0, s)

/-! ### Writes -/

/-- A write of v to the window word at index j: its four bytes, and DVALID for the D window (10_state R38;
20_memory R56). -/
def State.writeWindow (w : Window) (j : Nat) (v : Word) (s : State) : State :=
  match w with
  | .d => { s.storeBytes (w.base + j) (le32Bytes v) with dvalid := true }
  | .key => s.storeBytes (w.base + j) (le32Bytes v)
  | .iv => s.storeBytes (w.base + j) (le32Bytes v)
  | .digest => s.storeBytes (w.base + j) (le32Bytes v)
  | .ref => s.storeBytes (w.base + j) (le32Bytes v)
  | .n => s.storeBytes (w.base + j) (le32Bytes v)
  | .x => s.storeBytes (w.base + j) (le32Bytes v)
  | .dbuf => s.storeBytes (w.base + j) (le32Bytes v)

/-- Whether a legal write is dropped because a command is in flight: every offset but CTRL and STATUS
(60_exceptions R209 (a)). -/
def State.dropsWrite (off : Nat) (s : State) : Bool := s.busy && decide (off ≠ 0x004) && decide (off ≠ 0x008)

/-- A write to a hash data port runs the port operation that the decoder reads from it (30_encoding R85). -/
def runPort (off : Nat) (v : Word) (s : State) : Host.Outcome State Fault Refusal :=
  match decode { off := off, data := v } with
  | .ok i => exec i s
  | .error _ => .next s

/-- A legal write of v at a block offset (10_state R22 to R42; 60_exceptions R203, R209). -/
def busWrite (off : Nat) (v : Word) (s : State) : Host.Outcome State Fault Refusal :=
  match target s.cfg off with
  | .hdata32 => runPort off v s
  | .hdata8 => runPort off v s
  | .ctrl => .next (s.writeCtrl v)
  | .status => .next (s.writeStatus v)
  | .cmd => .next (if s.dropsWrite off then s.dropWrite else s.issue v)
  | .tag => .next (if s.dropsWrite off then s.dropWrite else { s with tag := v })
  | .len => .next (if s.dropsWrite off then s.dropWrite else { s with len := v })
  | .offlo => .next (if s.dropsWrite off then s.dropWrite else { s with offlo := v })
  | .offhi => .next (if s.dropsWrite off then s.dropWrite else { s with offhi := v })
  | .window w j => .next (if s.dropsWrite off then s.dropWrite else s.writeWindow w j v)
  | .id => .next (if s.dropsWrite off then s.dropWrite else s)
  | .reginfo => .next (if s.dropsWrite off then s.dropWrite else s)
  | .hlenlo => .next (if s.dropsWrite off then s.dropWrite else s)
  | .hlenhi => .next (if s.dropsWrite off then s.dropWrite else s)
  | .reserved => .next (if s.dropsWrite off then s.dropWrite else s)

/-! ### Accesses of a master -/

/-- The block offset of a legal access: 32 bits wide, word aligned, inside the 8 KiB from BASE; none for any other
access, which the bus refuses (20_memory R55, R59; log 7). -/
def Access.offset (c : Config) (a : Access) : Option Nat :=
  if a.shape = .word ∧ c.base ≤ a.addr ∧ a.addr < c.base + 0x2000 ∧ (a.addr - c.base) % 4 = 0 then
    some (a.addr - c.base)
  else none

/-- Master m's statements replaced. -/
def State.setProg (m : Nat) (p : List HostStep) (s : State) : State :=
  { s with masters := s.masters.modify m (fun x => { x with prog := p }) }

/-- A word returned to master m. -/
def State.deliver (m : Nat) (v : Word) (s : State) : State :=
  { s with masters := s.masters.modify m (fun x => { x with reads := x.reads ++ [v] }) }

/-- One bus access of master m: a bus error before every other rule (60_exceptions R210), else the read or the write. -/
def performAccess (m : Nat) (a : Access) (s : State) : Host.Outcome State Fault Refusal :=
  match a.offset s.cfg with
  | none => .fault (.busError a)
  | some off =>
    match a.op with
    | .read => .next ((s.busRead off).2.deliver m (s.busRead off).1)
    | .write v => busWrite off v s

/-- One read of a POLL statement of master m: the statement ends when the masked value is the awaited one and is
repeated otherwise (30_encoding R86). `rest` is what follows it. -/
def performPoll (m : Nat) (addr : Nat) (mask val : Word) (rest : List HostStep) (s : State) :
    Host.Outcome State Fault Refusal :=
  match Access.offset s.cfg { addr := addr, shape := .word, op := .read } with
  | none => .fault (.busError { addr := addr, shape := .word, op := .read })
  | some off =>
    if (s.busRead off).1 &&& mask = val then .next ((s.busRead off).2.setProg m rest) else .next (s.busRead off).2

/-- The next statement of master m; nothing when it has none. -/
def hostTurn (m : Nat) (s : State) : Host.Outcome State Fault Refusal :=
  match s.masters[m]? with
  | none => .next s
  | some x =>
    match x.prog with
    | [] => .next s
    | .bus a :: rest => performAccess m a (s.setProg m rest)
    | .poll addr mask val :: rest => performPoll m addr mask val rest s

/-! ### The engine -/

/-- The completion step: the command that the decoder reads from PENDING, or ILLEGAL_CMD for a word it rejects; nothing
when no command is in flight (60_exceptions R204, R205, R207; 30_encoding R82). -/
def engineTurn (s : State) : Host.Outcome State Fault Refusal :=
  match s.pending with
  | none => .next s
  | some w =>
    match decode { off := cmdOffset, data := w } with
    | .ok i => exec i s
    | .error _ => .next (s.raise .illegalCmd)

/-! ### Whose turn it is -/

/-- One agent's step. -/
def takeTurn (t : Turn) (s : State) : Host.Outcome State Fault Refusal :=
  match t with
  | .host m => hostTurn m s
  | .engine => engineTurn s
  | .reset => .next s.resetBlock

/-- The first master that has a statement left, if there is one. -/
def firstReady : List Master → Option Nat
  | [] => none
  | m :: ms => if m.prog.isEmpty then (firstReady ms).map (· + 1) else some 0

/-- Whose turn it is when the schedule is used up: the engine while a command is in flight, so that every command
completes (60_exceptions R204), else the first master with a statement left (log 5). -/
def State.nextTurn (s : State) : Option Turn :=
  if s.busy then some .engine else (firstReady s.masters).map .host

/-! ### Where the next instruction is fetched -/

/-- The state whose next step is the port write of v at a block offset by the first master (log 6). -/
def State.withPortWrite (s : State) (off : Nat) (v : Word) : State :=
  let st : HostStep := .bus { addr := s.cfg.base + off, shape := .word, op := .write v }
  { s with
    turns := .host 0 :: s.turns
    masters :=
      match s.masters with
      | [] => [{ prog := [st], reads := [] }]
      | m :: ms => { m with prog := st :: m.prog } :: ms }

/-- The state whose next step is the completion of command word w (log 6). -/
def State.withCommand (s : State) (w : Word) : State :=
  { s with turns := .engine :: s.turns, pending := some w }

/-- The state whose next step runs the instruction that a bus write carries. -/
def State.withTransfer (s : State) (t : BusWord) : State :=
  if t.off = cmdOffset then s.withCommand t.data else s.withPortWrite t.off t.data

end Sys2Proof.Machine
end

