-- ==== Sys2Proof/Machine/Step.lean ====
section
/-! DEFINITION. One step of the machine: one step of one agent, in the total order of 20_memory R62 (log 5). -/

namespace Sys2Proof.Machine

/-- The head of the schedule moves. When the schedule is used up the engine completes what is in flight, else the first
master with a statement left moves, else the block waits (20_memory R62; 60_exceptions R204; 70_reset R233). -/
def step (s : State) : Host.Outcome State Fault Refusal :=
  match s.turns with
  | t :: ts => takeTurn t { s with turns := ts }
  | [] =>
    match s.nextTurn with
    | some t => takeTurn t s
    | none => .next s

/-- The state whose next step fetches and runs the instruction of these opcode-table bits: a command word becomes the
command in flight with the engine's turn next, a port write the first master's next statement with its turn next
(log 6, log 11). -/
def State.withFetchWord (s : State) (nbits w : Nat) : State := s.withTransfer (tableTransfer nbits w)

end Sys2Proof.Machine
end

