-- ==== Sys2Proof/Machine/HostProgram.lean ====
section
/-! DEFINITION. The host program notation of 30_encoding R86, as expansions to a master's statements. `base` is BASE. -/

namespace Sys2Proof.Machine

/-- WR off, v. -/
def wr (base off : Nat) (v : Word) : HostStep := .bus { addr := base + off, shape := .word, op := .write v }

/-- RD off. -/
def rd (base off : Nat) : HostStep := .bus { addr := base + off, shape := .word, op := .read }

/-- POLL off, mask, val. -/
def pollFor (base off : Nat) (mask val : Word) : HostStep := .poll (base + off) mask val

/-- CMD m, for any command word (95_test_vectors writes illegal ones too). -/
def cmdWord (base : Nat) (w : Word) : List HostStep := [wr base cmdOffset w]

/-- WAIT: until BUSY = 0. -/
def waitDone (base : Nat) : List HostStep := [pollFor base 0x008 0x00000001 0x00000000]

/-- RUN m. -/
def run (base : Nat) (w : Word) : List HostStep := cmdWord base w ++ waitDone base

/-- The words of a byte string, four bytes each, with their offsets from `off` on. -/
def wordsFrom : Nat → Nat → List Byte → List (Nat × Word)
  | 0, _, _ => []
  | n + 1, off, s => (off, le32 (s.take 4)) :: wordsFrom n (off + 4) (s.drop 4)

/-- LOAD W@j, s, for |s| and j multiples of 4. -/
def load (base : Nat) (w : Window) (j : Nat) (s : List Byte) : List HostStep :=
  (wordsFrom (s.length / 4) (w.base + j) s).map (fun e => wr base e.1 e.2)

/-- HASHB s: complete groups of four bytes through HDATA32, the remaining bytes through HDATA8. -/
def hashb (base : Nat) (s : List Byte) : List HostStep :=
  (wordsFrom (s.length / 4) 0 s).map (fun e => wr base hdata32Offset e.2) ++
    (s.drop (4 * (s.length / 4))).map (fun b => wr base hdata8Offset (b.setWidth 32))

/-- The reads of DUMP W@j, n: one for each of i = 0, 4, ... below n, ceil(n/4) of them. The words arrive in the master's
reads. -/
def dump (base : Nat) (w : Window) (j n : Nat) : List HostStep :=
  (List.range (ceilDiv n 4)).map (fun i => rd base (w.base + j + 4 * i))

/-- What DUMP W@j, n yields once its reads are done: the words it read, the newest of the master's, concatenated as LE32
byte strings. -/
def dumpBytes (n : Nat) (reads : List Word) : List Byte :=
  (reads.drop (reads.length - ceilDiv n 4)).flatMap le32Bytes

end Sys2Proof.Machine
end

