-- ==== Sys2Proof/Safety.lean ====
section
/-! DEFINITION. What claims call safe: the invariants of the block's state (from 10_state R26, R38, R44 and
60_exceptions R214), stated part by part and together. -/

namespace Sys2Proof.Machine

/-- How many words H has for an algorithm (10_state R44). -/
def HashAlg.words : HashAlg → Nat
  | .none => 0
  | .sha1 => 5
  | .sha256 => 8

/-- The byte store is canonical and lists no byte of DBUF at or beyond DBUF_BYTES (10_state R22, R40; log 15). -/
structure State.StoreOk (s : State) : Prop where
  canonical : Memory.wf s.mem = true
  dbufTail : ∀ c ∈ s.mem, Window.dbuf.covers c.1 = true → c.1 < Window.dbuf.base + s.cfg.dbufBytes

/-- The hash context is as 10_state R44 describes it: with no active context HBUF is empty; an active one has an algorithm,
the words of H that the algorithm needs, and in HBUF the HLEN mod 64 bytes not yet compressed (41_digest R117). -/
structure State.HashOk (s : State) : Prop where
  idle : s.hact = false → s.hbuf = []
  algorithm : s.hact = true → s.halg ≠ .none
  chaining : s.hact = true → s.h.length = s.halg.words
  buffered : s.hact = true → s.hbuf.length = s.hlen.toNat % 64

/-- No completion is outstanding while a command is in flight (60_exceptions R203, R214). -/
def State.FlagsOk (s : State) : Prop := s.busy = true → s.done = false

/-- No byte of a private exponent is left when DVALID is 0 (10_state R38; 43_rsa R153, R154). -/
def State.SecretOk (s : State) : Prop := s.dvalid = false → ∀ a, Window.d.covers a = true → s.readByte a = 0

/-- The invariant of the machine. -/
structure State.Inv (s : State) : Prop where
  config : s.cfg.wellFormed = true
  store : s.StoreOk
  hash : s.HashOk
  flags : s.FlagsOk
  secret : s.SecretOk

/-! ### What a statement says changes and stays -/

/-- t is s after a completion with this code, in the completion fields of 60_exceptions R205. -/
structure State.CompletedAs (s t : State) (code : ErrCode) : Prop where
  errcode : t.errcode = code
  err : t.err = (s.err || decide (code ≠ .none))
  done : t.done = true
  idle : t.pending = none

/-- The registers only the host writes, the dropped-write flag, the parameters and the model's own schedule are as they
were. -/
structure State.SameHostSide (s t : State) : Prop where
  cfg : t.cfg = s.cfg
  ie : t.ie = s.ie
  perr : t.perr = s.perr
  tag : t.tag = s.tag
  len : t.len = s.len
  offlo : t.offlo = s.offlo
  offhi : t.offhi = s.offhi
  resets : t.resets = s.resets
  masters : t.masters = s.masters
  turns : t.turns = s.turns

/-- The hash context of 10_state R44 is as it was. -/
structure State.SameHash (s t : State) : Prop where
  hact : t.hact = s.hact
  halg : t.halg = s.halg
  h : t.h = s.h
  hbuf : t.hbuf = s.hbuf
  hlen : t.hlen = s.hlen

/-- Every window byte reads as before. -/
def State.SameBytes (s t : State) : Prop := ∀ x, t.readByte x = s.readByte x

/-- Every window byte outside the n bytes from block offset a on reads as before. -/
def State.SameBytesOutside (s t : State) (a n : Nat) : Prop :=
  ∀ x, x < a ∨ a + n ≤ x → t.readByte x = s.readByte x

/-- N and D are zero and DVALID is 0 (43_rsa R153). -/
structure State.Scrubbed (t : State) : Prop where
  modulus : ∀ j, j < 512 → t.readByte (0x400 + j) = 0
  exponent : ∀ j, j < 512 → t.readByte (0x600 + j) = 0
  dvalid : t.dvalid = false

/-- DBUF[16j..16j+16). -/
def State.dataBlock (s : State) (j : Nat) : List Byte := s.readBytes (0x1000 + 16 * j) 16

/-- Check1 and Check2 pass with operand length k (43_rsa R151, R152): an RSA class, a modulus of exactly k bytes, odd. -/
structure State.KeyUsable (s : State) (k : Nat) : Prop where
  size : (keySizeFor s.sigClass).bytes = some k
  lead : s.readByte 0x400 ≠ 0
  odd : s.modulus k % 2 = 1

/-- The encoded message of the current TAG and DIGEST for operand length k (44_pkcs1 R171, R172). -/
def State.currentEM (s : State) (k : Nat) : List Byte :=
  encodedMessage k (pkcsHashIdFor s.sigClass) (s.window .digest (digestLengthFor s.sigClass))

/-! ### Sequences -/

/-- The message bytes a port operation appends (41_digest R114, R115); none for a command. -/
def portBytes : Instr → Option (List Byte)
  | .hdata32 v => some (le32Bytes v)
  | .hdata8 v => some [v.extractLsb' 0 8]
  | .nop => none
  | .hashInitTag => none
  | .hashInitSha1 => none
  | .hashInitSha256 => none
  | .hashFinal => none
  | .dgstCmp => none
  | .aesCbcEnc => none
  | .aesCbcDec => none
  | .aesCtr => none
  | .ctrDerive => none
  | .rsaPub => none
  | .rsaPriv => none
  | .keyClear => none
  | .pkcsVerify => none
  | .pkcsSign => none

/-- The meanings of a list of instructions in order, stopping at the first that does not answer a next state. -/
def execAll : List Instr → State → Host.Outcome State Fault Refusal
  | [], s => .next s
  | i :: is, s =>
    match exec i s with
    | .next t => execAll is t
    | .fault r => .fault r
    | .refused r => .refused r

end Sys2Proof.Machine
end

