-- ==== Sys2Proof/Certificates/Slice0/Obligations.lean ====
section
/-! DEFINITION. The statements for the provers, one def Obligations.<Name> : Prop each; OBLIGATIONS.json lists them. -/

open Sys2Proof Sys2Proof.Machine

/-- Decoding a bus write gives an instruction exactly when that write is the instruction's encoding
(30_encoding R80, 30_encoding R85, 30_encoding R87; derived). -/
def Obligations.DecodeAndEncodeAgree : Prop :=
  ∀ (t : BusWord) (i : Instr), decode t = .ok i ↔ i.wellFormed = true ∧ encode i = t

/-- A command word is legal exactly when the table lists it, and then it is the listed command
(R81; formalises the rule). -/
def Obligations.LegalCommandWordsAreTheFifteen : Prop :=
  ∀ (w : Word) (i : Instr), decode { off := 0x00C, data := w } = .ok i ↔
    (w, i) ∈ ([(0x00000000, .nop), (0x00000001, .hashInitTag), (0x00000101, .hashInitSha1),
      (0x00000201, .hashInitSha256), (0x00000002, .hashFinal), (0x00000003, .dgstCmp), (0x00000010, .aesCbcEnc),
      (0x00000011, .aesCbcDec), (0x00000012, .aesCtr), (0x00000013, .ctrDerive), (0x00000020, .rsaPub),
      (0x00000021, .rsaPriv), (0x00000022, .keyClear), (0x00000030, .pkcsVerify), (0x00000031, .pkcsSign)] :
      List (Word × Instr))

/-- One word of every family, written out from the spec's fields, decodes to its instruction
(30_encoding R80, 30_encoding R81, 30_encoding R85; derived). -/
def Obligations.WrittenOutWordsDecode : Prop :=
  decode { off := 0x00C, data := 0#22 ++ 2#2 ++ 0x01#8 } = .ok .hashInitSha256 ∧
  decode { off := 0x00C, data := 0#22 ++ 0#2 ++ 0x12#8 } = .ok .aesCtr ∧
  decode { off := 0x00C, data := 0#22 ++ 0#2 ++ 0x21#8 } = .ok .rsaPriv ∧
  decode { off := 0x00C, data := 0#22 ++ 0#2 ++ 0x31#8 } = .ok .pkcsSign ∧
  decode { off := 0x02C, data := 0x00000161 } = .ok (.hdata8 0x00000161)

/-- An illegal command word completes with ILLEGAL_CMD and changes nothing else
(R207; formalises the rule). -/
def Obligations.IllegalWordCompletesWithIllegalCmd : Prop :=
  ∀ (s : State) (ts : List Turn) (w : Word), s.turns = .engine :: ts → s.pending = some w →
    w ∉ ([0x00000000, 0x00000001, 0x00000101, 0x00000201, 0x00000002, 0x00000003, 0x00000010, 0x00000011, 0x00000012,
      0x00000013, 0x00000020, 0x00000021, 0x00000022, 0x00000030, 0x00000031] : List Word) →
    step s = .next { s with turns := ts, errcode := .illegalCmd, err := true, done := true, pending := none }

/-- When the engine moves, a step is the meaning of the command in flight
(60_exceptions R204, 60_exceptions R205, 20_memory R62; derived). -/
def Obligations.StepRunsTheCommandInFlight : Prop :=
  ∀ (s : State) (w : Word) (i : Instr), s.pending = some w → decode { off := 0x00C, data := w } = .ok i →
    (∀ ts, s.turns = .engine :: ts → step s = exec i { s with turns := ts }) ∧
    (s.turns = [] → step s = exec i s)

/-- When a master's next statement is a legal write, a step is that bus write, and on a hash data port the meaning of
the port operation
(30_encoding R85, 30_encoding R86, 20_memory R61, 20_memory R62; derived). -/
def Obligations.StepRunsTheWriteStatement : Prop :=
  ∀ (s : State) (m : Nat) (ts : List Turn) (x : Master) (a : Access) (rest : List HostStep) (off : Nat) (v : Word),
    s.turns = .host m :: ts → s.masters[m]? = some x → x.prog = .bus a :: rest → a.offset s.cfg = some off →
    a.op = .write v →
    step s = busWrite off v ({ s with turns := ts }.setProg m rest) ∧
    ∀ i : Instr, (off = 0x028 ∨ off = 0x02C) → decode { off := off, data := v } = .ok i →
      step s = exec i ({ s with turns := ts }.setProg m rest)

/-- An RD statement takes one step and returns the word at its offset to its master
(30_encoding R86, 20_memory R60, 20_memory R61; derived). -/
def Obligations.ReadStatementReturnsTheWord : Prop :=
  ∀ (s : State) (m : Nat) (ts : List Turn) (x : Master) (off : Nat) (rest : List HostStep),
    s.turns = .host m :: ts → s.masters[m]? = some x → off % 4 = 0 → off < 0x2000 →
    x.prog = .bus { addr := s.cfg.base + off, shape := .word, op := .read } :: rest →
    ∃ t, step s = .next t ∧
      t.masters[m]? = some { prog := rest, reads := x.reads ++ [(s.busRead off).1] } ∧ s.SameBytes t

/-- A CMD write issues the command when idle and is dropped when busy; CMD reads zero
(R28, R203; formalises the rule). -/
def Obligations.CommandWriteIssuesOrIsDropped : Prop :=
  ∀ (s : State) (v : Word), (s.busRead 0x00C).1 = 0 ∧
    (s.busy = true → busWrite 0x00C v s = .next { s with perr := true }) ∧
    (s.busy = false → ∃ t, busWrite 0x00C v s = .next t ∧ t = { s with pending := some v, done := false } ∧
      t.busy = true ∧ t.irq = false)

/-- A legal write is dropped exactly when BUSY (except CTRL and STATUS) or on a hash port without a context
(R209; formalises the rule). -/
def Obligations.WritesAreDroppedInExactlyTwoCases : Prop :=
  ∀ (s : State) (off : Nat) (v : Word), off % 4 = 0 → off < 0x2000 → ∃ t, busWrite off v s = .next t ∧
    ((s.busy = true ∧ off ≠ 0x004 ∧ off ≠ 0x008) ∨
        (s.busy = false ∧ s.hact = false ∧ (off = 0x028 ∨ off = 0x02C)) →
      t = { s with perr := true }) ∧
    (¬ ((s.busy = true ∧ off ≠ 0x004 ∧ off ≠ 0x008) ∨
        (s.busy = false ∧ s.hact = false ∧ (off = 0x028 ∨ off = 0x02C))) →
      (off ≠ 0x008 → t.perr = s.perr) ∧ (off = 0x008 → t.perr = true → s.perr = true)) ∧
    (s.busRead off).2.perr = s.perr

/-- A STATUS write clears DONE, ERR and PERR where bits 1, 2 and 3 are 1, in any state, and nothing else
(R27; formalises the rule). -/
def Obligations.StatusWriteClearsOnlyWrittenFlags : Prop :=
  ∀ (s : State) (v : Word), ∃ t, busWrite 0x008 v s = .next t ∧
    t.done = (if v.getLsbD 1 then false else s.done) ∧ t.err = (if v.getLsbD 2 then false else s.err) ∧
    t.perr = (if v.getLsbD 3 then false else s.perr) ∧
    t = { s with done := t.done, err := t.err, perr := t.perr }

/-- A CTRL write sets IE to bit 0 in any state, CTRL reads it back alone, and IRQ follows IE and DONE
(R25; formalises the rule). -/
def Obligations.CtrlHoldsOnlyTheInterruptEnable : Prop :=
  ∀ (s : State) (v : Word), ∃ t, busWrite 0x004 v s = .next t ∧ t = { s with ie := v.getLsbD 0 } ∧
    (t.busRead 0x004).1 = v &&& 0x00000001 ∧ t.irq = (v.getLsbD 0 && s.done) ∧ s.resetBlock.ie = false

/-- An access is a bus error exactly when it is not a single aligned 32-bit access inside the block (outside it: the
model's choice, log 7)
(20_memory R59, 20_memory R55; derived). -/
def Obligations.OnlyAlignedWordAccessesAreLegal : Prop :=
  ∀ (s : State) (m : Nat) (a : Access),
    ((∃ off, a.shape = .word ∧ a.addr = s.cfg.base + off ∧ off % 4 = 0 ∧ off ≤ 0x1FFC) →
      ∃ t, performAccess m a s = .next t) ∧
    ((¬ ∃ off, a.shape = .word ∧ a.addr = s.cfg.base + off ∧ off % 4 = 0 ∧ off ≤ 0x1FFC) →
      performAccess m a s = .fault (.busError a))

/-- ID reads 0x4D4B4631 in every state and a write to it has no effect
(R24; formalises the rule). -/
def Obligations.IdReadsItsConstant : Prop :=
  ∀ (s : State) (v : Word), s.busRead 0x000 = (0x4D4B4631, s) ∧
    busWrite 0x000 v s = .next (if s.busy = true then { s with perr := true } else s)

/-- STATUS reads its fields at their bit places, ERRCODE and HALG by the spec's numbers, and zero in its reserved bits
(10_state R23, 10_state R26, 60_exceptions R201; derived). -/
def Obligations.StatusReadShowsItsFields : Prop :=
  ∀ s : State, ∃ w, s.busRead 0x008 = (w, s) ∧
    w.getLsbD 0 = s.pending.isSome ∧ w.getLsbD 1 = s.done ∧ w.getLsbD 2 = s.err ∧ w.getLsbD 3 = s.perr ∧
    w.getLsbD 4 = s.hact ∧ w.getLsbD 5 = s.dvalid ∧ w.getLsbD 6 = s.result ∧ w.getLsbD 7 = false ∧
    (w.extractLsb' 8 8).toNat = (match s.errcode with
      | .none => 0x00
      | .unsupportedSigtype => 0x01
      | .keyInit => 0x02
      | .signing => 0x03
      | .badLength => 0x04
      | .illegalCmd => 0x05
      | .noHashContext => 0x06
      | .rsaInputRange => 0x07) ∧
    (w.extractLsb' 16 2).toNat = (match s.halg with
      | .none => 0
      | .sha1 => 1
      | .sha256 => 2) ∧
    w.extractLsb' 18 14 = 0

/-- Under the default tag map REGINFO reads the spec's table of words, busy or not
(40_registry R92, 40_registry R93, 40_registry R96; derived). -/
def Obligations.RegInfoShowsTheRegistry : Prop :=
  ∀ s : State, s.cfg.sigtypeMap = Config.defaultMap → s.busRead 0x014 =
    (if s.tag = 0x00010000 then 0x00011416 else if s.tag = 0x00010001 then 0x00031415
     else if s.tag = 0x00010002 then 0x00051404 else if s.tag = 0x00010003 then 0x0002202A
     else if s.tag = 0x00010004 then 0x00042029 else if s.tag = 0x00010005 then 0x00062008 else 0, s)

/-- A reserved offset, and DBUF at or beyond DBUF_BYTES, reads 0 and ignores writes, which set PERR only while BUSY
(R22; formalises the rule). -/
def Obligations.ReservedOffsetsReadZeroAndIgnoreWrites : Prop :=
  ∀ (s : State) (off : Nat) (v : Word), off % 4 = 0 →
    (off = 0x01C ∨ (0x038 ≤ off ∧ off < 0x040) ∨ (0x0A0 ≤ off ∧ off < 0x400) ∨ (0xA00 ≤ off ∧ off < 0x1000) ∨
      (0x1000 + s.cfg.dbufBytes ≤ off ∧ off < 0x2000)) →
    s.busRead off = (0, s) ∧ busWrite off v s = .next (if s.busy = true then { s with perr := true } else s)

/-- Window words use little-endian lanes; KEY and D read 0 and REF its value, BUSY or not; a D write sets DVALID; BUSY
drops writes
(20_memory R56, 10_state R33, 10_state R38, 10_state R43, 60_exceptions R209; derived). -/
def Obligations.WindowWordsUseLittleEndianLanes : Prop :=
  ∀ (s : State) (w : Window) (j : Nat) (v : Word), s.cfg.dbufBytes ≤ 4096 → j % 4 = 0 → j + 4 ≤ w.size s.cfg →
    ((w = .key ∨ w = .d) → s.busRead (w.base + j) = (0, s)) ∧
    (w = .ref ∨ (s.busy = false ∧ w ≠ .key ∧ w ≠ .d) →
      (s.busRead (w.base + j)).2 = s ∧ (s.busRead (w.base + j)).1.toNat =
        (s.readByte (w.base + j)).toNat + 2 ^ 8 * (s.readByte (w.base + j + 1)).toNat +
          2 ^ 16 * (s.readByte (w.base + j + 2)).toNat + 2 ^ 24 * (s.readByte (w.base + j + 3)).toNat) ∧
    (s.busy = false → ∃ t, busWrite (w.base + j) v s = .next t ∧
      t.readByte (w.base + j) = v.extractLsb' 0 8 ∧ t.readByte (w.base + j + 1) = v.extractLsb' 8 8 ∧
      t.readByte (w.base + j + 2) = v.extractLsb' 16 8 ∧ t.readByte (w.base + j + 3) = v.extractLsb' 24 8 ∧
      s.SameBytesOutside t (w.base + j) 4 ∧
      t = { s with mem := t.mem, dvalid := if w = .d then true else s.dvalid }) ∧
    (s.busy = true → busWrite (w.base + j) v s = .next { s with perr := true })

/-- TAG, LEN, OFFLO and OFFHI hold what is written; HLENLO and HLENHI read HLEN's halves; REGINFO and HLEN ignore
writes; ports read 0
(10_state R29, 10_state R30, 10_state R31, 10_state R32, 10_state R41, 10_state R42, 10_state R43, 20_memory R57;
derived). -/
def Obligations.HostRegistersHoldWhatIsWritten : Prop :=
  ∀ (s : State) (v : Word),
    (s.busy = false → busWrite 0x010 v s = .next { s with tag := v } ∧
      busWrite 0x018 v s = .next { s with len := v } ∧ busWrite 0x020 v s = .next { s with offlo := v } ∧
      busWrite 0x024 v s = .next { s with offhi := v } ∧ busWrite 0x014 v s = .next s ∧
      busWrite 0x030 v s = .next s ∧ busWrite 0x034 v s = .next s ∧
      s.busRead 0x030 = (s.hlen.extractLsb' 0 32, s) ∧ s.busRead 0x034 = (s.hlen.extractLsb' 32 32, s)) ∧
    s.busRead 0x010 = (s.tag, s) ∧ s.busRead 0x018 = (s.len, s) ∧ s.busRead 0x020 = (s.offlo, s) ∧
    s.busRead 0x024 = (s.offhi, s) ∧ s.offset.toNat = s.offhi.toNat * 2 ^ 32 + s.offlo.toNat ∧
    s.busRead 0x028 = (0, s) ∧ s.busRead 0x02C = (0, s)

/-- A read changes nothing but, while a command is in flight, the count of free values taken (the model's own, log 2)
(10_state R43, 20_memory R60; derived). -/
def Obligations.ReadsHaveNoSideEffect : Prop :=
  ∀ (s : State) (off : Nat), (s.busy = false → (s.busRead off).2 = s) ∧
    ((s.busRead off).2 = s ∨ (s.busRead off).2 = { s with draws := s.draws + 1 })

/-- No read of any register or window depends on KEY, on D, or on the hash context's H and HBUF (while BUSY: by the
model's choice of log 2)
(10_state R33, 10_state R38, 10_state R43, 10_state R44; derived). -/
def Obligations.NoReadRevealsHiddenState : Prop :=
  ∀ (s t : State) (off : Nat),
    (t = { s with mem := t.mem, h := t.h, hbuf := t.hbuf } →
      (∀ x, ¬ (0x040 ≤ x ∧ x < 0x050) → ¬ (0x600 ≤ x ∧ x < 0x800) → t.readByte x = s.readByte x) →
      (t.busRead off).1 = (s.busRead off).1) ∧
    (s.busy = true → t = { s with mem := t.mem, h := t.h, hbuf := t.hbuf, hlen := t.hlen } →
      (∀ x, 0x080 ≤ x ∧ x < 0x0A0 → t.readByte x = s.readByte x) →
      (t.busRead off).1 = (s.busRead off).1)

/-- While a command is in flight no host step changes any operand, window, hash context or the command itself
(20_memory R65, 60_exceptions R209; derived). -/
def Obligations.BusyFreezesTheOperands : Prop :=
  ∀ (s t : State) (m : Nat), s.busy = true → hostTurn m s = .next t →
    t = { s with ie := t.ie, done := t.done, err := t.err, perr := t.perr, draws := t.draws, masters := t.masters }

/-- Reset, in any state, gives every register, window and flag its reset value and drops the command; parameters and
schedule stay (log 9)
(70_reset R230, 70_reset R231, 70_reset R232; derived). -/
def Obligations.ResetSetsEveryPieceOfState : Prop :=
  ∀ (s : State) (ts : List Turn), s.turns = .reset :: ts → ∃ t, step s = .next t ∧
    t.ie = false ∧ t.done = false ∧ t.err = false ∧ t.perr = false ∧ t.hact = false ∧ t.dvalid = false ∧
    t.result = false ∧ t.errcode = .none ∧ t.halg = .none ∧ t.tag = 0 ∧ t.len = 0 ∧ t.offlo = 0 ∧ t.offhi = 0 ∧
    t.hbuf = [] ∧ t.hlen = 0 ∧ t.pending = none ∧ t.busy = false ∧ t.irq = false ∧
    (∀ x, (0x040 ≤ x ∧ x < 0x0A0) ∨ (0x400 ≤ x ∧ x < 0x800) → t.readByte x = 0) ∧
    (t.busRead 0x000).1 = 0x4D4B4631 ∧ (t.busRead 0x008).1 = 0 ∧
    ((∀ e ∈ s.cfg.sigtypeMap, e.1 ≠ 0) → (t.busRead 0x014).1 = 0) ∧ t.cfg = s.cfg ∧ t.turns = ts

/-- NOP completes and changes nothing but the completion fields
(R97; formalises the rule). -/
def Obligations.NopOnlyCompletes : Prop :=
  decode { off := 0x00C, data := 0x00000000 } = .ok .nop ∧
  ∀ s : State, ∃ t, exec .nop s = .next t ∧ t.irq = s.ie ∧
    t = { s with errcode := .none, done := true, pending := none }

/-- Every command's meaning is one completion that leaves the host's registers, KEY and REF alone
(60_exceptions R205, 60_exceptions R206, 10_state R29, 10_state R31, 10_state R32, 10_state R33, 10_state R36;
derived). -/
def Obligations.EveryCommandCompletesAtomically : Prop :=
  ∀ (s : State) (i : Instr), portBytes i = none → ∃ t c, exec i s = .next t ∧ s.CompletedAs t c ∧ t.irq = s.ie ∧
    s.SameHostSide t ∧ (∀ x, (0x040 ≤ x ∧ x < 0x050) ∨ (0x080 ≤ x ∧ x < 0x0A0) → t.readByte x = s.readByte x)

/-- RESULT, HACT, HALG, DVALID and PERR change only in the instructions the flag summary names
(10_state R47; derived). -/
def Obligations.FlagsAreWrittenOnlyByTheirRules : Prop :=
  ∀ (s t : State) (i : Instr), exec i s = .next t →
    (t.result ≠ s.result → i = .dgstCmp ∨ i = .pkcsVerify) ∧
    ((t.hact = true ∧ s.hact = false) ∨ t.halg ≠ s.halg → i = .hashInitTag ∨ i = .hashInitSha1 ∨ i = .hashInitSha256) ∧
    (t.hact = false ∧ s.hact = true → i = .hashFinal) ∧
    (t.dvalid ≠ s.dvalid → t.dvalid = false ∧
      (i = .rsaPub ∨ i = .rsaPriv ∨ i = .keyClear ∨ i = .pkcsVerify ∨ i = .pkcsSign)) ∧
    (t.perr ≠ s.perr → t.perr = true ∧ portBytes i ≠ none) ∧
    (t.done ≠ s.done ∨ t.err ≠ s.err ∨ t.errcode ≠ s.errcode → portBytes i = none)

/-- HASH_INIT starts an empty context of its algorithm, and .TAG of an unknown tag is UNSUPPORTED_SIGTYPE
(R113; formalises the rule). -/
def Obligations.HashInitStartsAContext : Prop :=
  decode { off := 0x00C, data := 0x00000001 } = .ok .hashInitTag ∧
  decode { off := 0x00C, data := 0x00000101 } = .ok .hashInitSha1 ∧
  decode { off := 0x00C, data := 0x00000201 } = .ok .hashInitSha256 ∧
  ∀ (s : State) (i : Instr) (alg : HashAlg),
    (i = .hashInitTag ∧ alg = digestAlgorithmFor s.sigClass) ∨ (i = .hashInitSha1 ∧ alg = .sha1) ∨
      (i = .hashInitSha256 ∧ alg = .sha256) →
    (alg ≠ .none → ∃ t, exec i s = .next t ∧ s.CompletedAs t .none ∧ s.SameHostSide t ∧ t.hact = true ∧
      t.halg = alg ∧ t.hbuf = [] ∧ t.hlen = 0 ∧
      (alg = .sha1 → t.h = [0x67452301, 0xEFCDAB89, 0x98BADCFE, 0x10325476, 0xC3D2E1F0]) ∧
      (alg = .sha256 → t.h = [0x6A09E667, 0xBB67AE85, 0x3C6EF372, 0xA54FF53A,
        0x510E527F, 0x9B05688C, 0x1F83D9AB, 0x5BE0CD19]) ∧
      t.result = s.result ∧ t.dvalid = s.dvalid ∧ t.draws = s.draws ∧ s.SameBytes t) ∧
    (alg = .none → exec i s =
      .next { s with errcode := .unsupportedSigtype, err := true, done := true, pending := none })

/-- HDATA32 appends v[7:0], v[15:8], v[23:16], v[31:24], compressing when 64 bytes are buffered, or is dropped
(R114; formalises the rule). -/
def Obligations.Hdata32AbsorbsFourBytes : Prop :=
  (∀ v : Word, decode { off := 0x028, data := v } = .ok (.hdata32 v)) ∧
  ∀ (s : State) (v : Word),
    (s.busy = false → s.hact = true → s.hbuf.length < 64 → ∃ (t : State) (m : List Byte),
      m = s.hbuf ++ [v.extractLsb' 0 8, v.extractLsb' 8 8, v.extractLsb' 16 8, v.extractLsb' 24 8] ∧
      exec (.hdata32 v) s = .next t ∧ t = { s with h := t.h, hbuf := t.hbuf, hlen := s.hlen + 4 } ∧
      (m.length < 64 → t.h = s.h ∧ t.hbuf = m) ∧
      (64 ≤ m.length → t.h = s.halg.compress s.h (m.take 64) ∧ t.hbuf = m.drop 64)) ∧
    (s.busy = true ∨ s.hact = false → exec (.hdata32 v) s = .next { s with perr := true })

/-- HDATA8 appends v[7:0], compressing when 64 bytes are buffered, or is dropped; v[31:8] is ignored
(R115; formalises the rule). -/
def Obligations.Hdata8AbsorbsOneByte : Prop :=
  (∀ v : Word, decode { off := 0x02C, data := v } = .ok (.hdata8 v)) ∧
  ∀ (s : State) (v : Word),
    (s.busy = false → s.hact = true → s.hbuf.length < 64 → ∃ (t : State),
      exec (.hdata8 v) s = .next t ∧ t = { s with h := t.h, hbuf := t.hbuf, hlen := s.hlen + 1 } ∧
      (s.hbuf.length < 63 → t.h = s.h ∧ t.hbuf = s.hbuf ++ [v.extractLsb' 0 8]) ∧
      (s.hbuf.length = 63 → t.h = s.halg.compress s.h (s.hbuf ++ [v.extractLsb' 0 8]) ∧ t.hbuf = [])) ∧
    (s.busy = true ∨ s.hact = false → exec (.hdata8 v) s = .next { s with perr := true }) ∧
    (∀ v' : Word, v'.extractLsb' 0 8 = v.extractLsb' 0 8 → exec (.hdata8 v') s = exec (.hdata8 v) s)

/-- HASH_FINAL pads, compresses, writes all 32 bytes of DIGEST and closes the context; without one, NO_HASH_CONTEXT
(R117; formalises the rule). -/
def Obligations.HashFinalWritesTheDigest : Prop :=
  decode { off := 0x00C, data := 0x00000002 } = .ok .hashFinal ∧
  ∀ s : State, (s.hact = true → s.HashOk → ∃ (t : State) (m : List Byte) (h' : List Word),
      m = s.hbuf ++ pad s.hlen.toNat ∧ m.length % 64 = 0 ∧ h' = compressBlocks s.halg (m.length / 64) s.h m ∧
      exec .hashFinal s = .next t ∧ s.CompletedAs t .none ∧ s.SameHostSide t ∧
      t.hact = false ∧ t.halg = s.halg ∧ t.hlen = s.hlen ∧ t.hbuf = [] ∧
      t.result = s.result ∧ t.dvalid = s.dvalid ∧
      (s.halg = .sha1 → t.window .digest 32 = h'.flatMap be32Bytes ++ List.replicate 12 0) ∧
      (s.halg = .sha256 → t.window .digest 32 = h'.flatMap be32Bytes) ∧
      s.SameBytesOutside t 0x060 32) ∧
    (s.hact = false → exec .hashFinal s =
      .next { s with errcode := .noHashContext, err := true, done := true, pending := none })

/-- Any split of a message into port writes, between HASH_INIT and HASH_FINAL, leaves the one-shot digest of the message
(41_digest R112, 41_digest R119, 41_digest R116; derived). -/
def Obligations.StreamingHashIsTheOneShotDigest : Prop :=
  ∀ (alg : HashAlg) (i : Instr) (s : State) (ops : List Instr) (ms : List (List Byte)),
    (i = .hashInitTag ∧ alg = digestAlgorithmFor s.sigClass) ∨ (i = .hashInitSha1 ∧ alg = .sha1) ∨
      (i = .hashInitSha256 ∧ alg = .sha256) →
    alg ≠ .none → ops.map portBytes = ms.map some →
    ∃ t, execAll (i :: (ops ++ [.hashFinal])) s = .next t ∧
      t.window .digest 32 = digestMessage alg ms.flatten ++ zeros (32 - alg.digestBytes) ∧
      t.hlen = BitVec.ofNat 64 ms.flatten.length ∧ t.perr = s.perr ∧ t.errcode = .none ∧ t.hact = false ∧ t.halg = alg

/-- DGST_CMP sets RESULT exactly when all 32 bytes of DIGEST and REF agree, without error either way
(R118; formalises the rule). -/
def Obligations.DgstCmpComparesAllBytes : Prop :=
  decode { off := 0x00C, data := 0x00000003 } = .ok .dgstCmp ∧
  ∀ s : State, ∃ t, exec .dgstCmp s = .next t ∧
    t = { s with result := t.result, errcode := .none, done := true, pending := none } ∧
    (t.result = true ↔ ∀ j, j < 32 → s.readByte (0x060 + j) = s.readByte (0x080 + j))

/-- AES_D(K, AES_E(K, B)) = B for every key and block
(42_cipher R130, 42_cipher R131; derived). -/
def Obligations.AesDecryptionInvertsEncryption : Prop :=
  ∀ k b : List Byte, k.length = 16 → b.length = 16 → aesD k (aesE k b) = b

/-- The FIPS 197 example block encrypts to the spec's ciphertext and decrypts back
(42_cipher R131; derived). -/
def Obligations.FipsExampleEncrypts : Prop :=
  aesE (be 16 0x000102030405060708090a0b0c0d0e0f) (be 16 0x00112233445566778899aabbccddeeff) =
    be 16 0x69c4e0d86a7b0430d8cdb78070b4c55a ∧
  aesD (be 16 0x000102030405060708090a0b0c0d0e0f) (be 16 0x69c4e0d86a7b0430d8cdb78070b4c55a) =
    be 16 0x00112233445566778899aabbccddeeff

/-- AES_CBC_ENC replaces each block by AES_E of it XORed with the block before, and IV by the last ciphertext block
(42_cipher R132, 42_cipher R135; derived). -/
def Obligations.CbcEncryptionChainsBlocks : Prop :=
  decode { off := 0x00C, data := 0x00000010 } = .ok .aesCbcEnc ∧
  ∀ s : State, s.len.toNat ≤ s.cfg.dbufBytes → s.len.toNat % 16 = 0 →
    ∃ t, exec .aesCbcEnc s = .next t ∧ s.CompletedAs t .none ∧ s.SameHostSide t ∧ s.SameHash t ∧
      t.result = s.result ∧ t.dvalid = s.dvalid ∧ t.draws = s.draws ∧
      (∀ j, j < s.len.toNat / 16 → t.dataBlock j = aesE (s.window .key 16)
        (xorBytes (s.dataBlock j) (if j = 0 then s.window .iv 16 else t.dataBlock (j - 1)))) ∧
      t.window .iv 16 = (if s.len.toNat = 0 then s.window .iv 16 else t.dataBlock (s.len.toNat / 16 - 1)) ∧
      (∀ x, ¬ (0x050 ≤ x ∧ x < 0x060) → ¬ (0x1000 ≤ x ∧ x < 0x1000 + s.len.toNat) → t.readByte x = s.readByte x)

/-- AES_CBC_DEC replaces each block by AES_D of it XORed with the ciphertext block before, and IV by the last one read
(42_cipher R133, 42_cipher R135; derived). -/
def Obligations.CbcDecryptionChainsBlocks : Prop :=
  decode { off := 0x00C, data := 0x00000011 } = .ok .aesCbcDec ∧
  ∀ s : State, s.len.toNat ≤ s.cfg.dbufBytes → s.len.toNat % 16 = 0 →
    ∃ t, exec .aesCbcDec s = .next t ∧ s.CompletedAs t .none ∧ s.SameHostSide t ∧ s.SameHash t ∧
      t.result = s.result ∧ t.dvalid = s.dvalid ∧ t.draws = s.draws ∧
      (∀ j, j < s.len.toNat / 16 → t.dataBlock j = xorBytes (aesD (s.window .key 16) (s.dataBlock j))
        (if j = 0 then s.window .iv 16 else s.dataBlock (j - 1))) ∧
      t.window .iv 16 = (if s.len.toNat = 0 then s.window .iv 16 else s.dataBlock (s.len.toNat / 16 - 1)) ∧
      (∀ x, ¬ (0x050 ≤ x ∧ x < 0x060) → ¬ (0x1000 ≤ x ∧ x < 0x1000 + s.len.toNat) → t.readByte x = s.readByte x)

/-- AES_CTR XORs byte i of DBUF with byte i mod 16 of AES_E of the derived counter advanced i/16 times; IV stays
(42_cipher R134, 42_cipher R136, 42_cipher R138; derived). -/
def Obligations.CtrXorsTheKeystream : Prop :=
  decode { off := 0x00C, data := 0x00000012 } = .ok .aesCtr ∧
  (∀ (c : Config) (x : List Byte), c.increment = .inc128 → incCounter c x = be 16 ((os2ip x + 1) % 2 ^ 128)) ∧
  (∀ (c : Config) (x : List Byte), c.increment = .inc64 → x.length = 16 →
    (c.indexField = .hiAddr → incCounter c x = x.take 8 ++ be 8 ((os2ip (x.drop 8) + 1) % 2 ^ 64)) ∧
    (c.indexField = .loAddr → incCounter c x = be 8 ((os2ip (x.take 8) + 1) % 2 ^ 64) ++ x.drop 8)) ∧
  ∀ s : State, s.len.toNat ≤ s.cfg.dbufBytes →
    ∃ t, exec .aesCtr s = .next t ∧ s.CompletedAs t .none ∧ s.SameHostSide t ∧ s.SameHash t ∧
      t.result = s.result ∧ t.dvalid = s.dvalid ∧ t.draws = s.draws ∧
      (∀ i, i < s.len.toNat → t.readByte (0x1000 + i) = s.readByte (0x1000 + i) ^^^
        byteAt (aesE (s.window .key 16) ((incCounter s.cfg)^[i / 16]
          (deriveCounter s.cfg.indexField (s.window .iv 16) s.offset))) (i % 16)) ∧
      s.SameBytesOutside t 0x1000 s.len.toNat

/-- CTR_DERIVE ORs ceil(OFFSET/16) into the index field of IV, keeps the nonce, and is idempotent
(R137, R139; formalises the rule). -/
def Obligations.CtrDeriveOrsTheBlockIndex : Prop :=
  decode { off := 0x00C, data := 0x00000013 } = .ok .ctrDerive ∧
  ∀ s : State, ∃ t u, exec .ctrDerive s = .next t ∧ exec .ctrDerive t = .next u ∧ u.window .iv 16 = t.window .iv 16 ∧
    s.CompletedAs t .none ∧ s.SameHostSide t ∧ s.SameHash t ∧
      t.result = s.result ∧ t.dvalid = s.dvalid ∧ t.draws = s.draws ∧
      (s.cfg.indexField = .hiAddr → s.SameBytesOutside t 0x058 8 ∧
        os2ip (t.readBytes 0x058 8) = os2ip (s.readBytes 0x058 8) ||| (s.offset.toNat + 15) / 16) ∧
      (s.cfg.indexField = .loAddr → s.SameBytesOutside t 0x050 8 ∧
        os2ip (t.readBytes 0x050 8) = os2ip (s.readBytes 0x050 8) ||| (s.offset.toNat + 15) / 16)

/-- An AES command with an illegal LEN completes with BAD_LENGTH and changes nothing else
(42_cipher R132, 42_cipher R133, 42_cipher R134, 60_exceptions R206, 60_exceptions R208; derived). -/
def Obligations.BadLengthChangesNothing : Prop :=
  ∀ (s : State) (i : Instr),
    ((i = .aesCbcEnc ∨ i = .aesCbcDec) ∧ (s.cfg.dbufBytes < s.len.toNat ∨ s.len.toNat % 16 ≠ 0)) ∨
      (i = .aesCtr ∧ s.cfg.dbufBytes < s.len.toNat) →
    exec i s = .next { s with errcode := .badLength, err := true, done := true, pending := none }

/-- CBC decryption undoes encryption once IV is reloaded, and CTR applied twice restores the data
(42_cipher R140; derived). -/
def Obligations.CipherModesUndoThemselves : Prop :=
  (∀ s : State, s.len.toNat ≤ s.cfg.dbufBytes → s.len.toNat % 16 = 0 →
    ∃ t u, exec .aesCbcEnc s = .next t ∧ exec .aesCbcDec (t.setWindow .iv (s.window .iv 16)) = .next u ∧
      t.errcode = .none ∧ u.errcode = .none ∧
      (∀ x, ¬ (0x050 ≤ x ∧ x < 0x060) → u.readByte x = s.readByte x)) ∧
  (∀ s : State, s.len.toNat ≤ s.cfg.dbufBytes →
    ∃ t u, exec .aesCtr s = .next t ∧ exec .aesCtr t = .next u ∧ t.errcode = .none ∧ u.errcode = .none ∧
      s.SameBytes u ∧
      ∀ i, i < s.len.toNat → t.readByte (0x1000 + i) = s.readByte (0x1000 + i) ^^^
        byteAt (aesE (s.window .key 16) ((incCounter s.cfg)^[i / 16]
          (deriveCounter s.cfg.indexField (s.window .iv 16) s.offset))) (i % 16))

/-- Two CBC commands over the parts of a buffer, the second from the first's final IV, give the bytes and IV of one over
the whole
(42_cipher R135; derived). -/
def Obligations.CbcChainsAcrossCommands : Prop :=
  (∀ (s : State) (i : Instr) (m n : Nat), i = .aesCbcEnc ∨ i = .aesCbcDec → 16 * (m + n) ≤ s.cfg.dbufBytes →
    16 * (m + n) < 2 ^ 32 → ∃ t u v, exec i { s with len := BitVec.ofNat 32 (16 * (m + n)) } = .next t ∧
      exec i { s with len := BitVec.ofNat 32 (16 * m) } = .next u ∧
      exec i { u.setWindow .dbuf (s.readBytes (0x1000 + 16 * m) (16 * n)) with len := BitVec.ofNat 32 (16 * n) } =
        .next v ∧
      t.errcode = .none ∧ u.errcode = .none ∧ v.errcode = .none ∧
      u.window .dbuf (16 * m) = t.window .dbuf (16 * m) ∧
      v.window .dbuf (16 * n) = t.readBytes (0x1000 + 16 * m) (16 * n) ∧ v.window .iv 16 = t.window .iv 16) ∧
  ∀ (k c a b : List Byte) (m n : Nat), a.length = 16 * m →
    cbcEncrypt k (m + n) c (a ++ b) =
      ((cbcEncrypt k m c a).1 ++ (cbcEncrypt k n (cbcEncrypt k m c a).2 b).1,
        (cbcEncrypt k n (cbcEncrypt k m c a).2 b).2) ∧
    cbcDecrypt k (m + n) c (a ++ b) =
      ((cbcDecrypt k m c a).1 ++ (cbcDecrypt k n (cbcDecrypt k m c a).2 b).1,
        (cbcDecrypt k n (cbcDecrypt k m c a).2 b).2)

/-- The exponentiation engine computes x^e mod n exactly, with 0^0 = 1, for every exponent of at most 4096 bits
(43_rsa R150, 43_rsa R156; derived). -/
def Obligations.RsaExpIsExactPower : Prop :=
  ∀ x e n : Nat, e < 2 ^ 4096 → rsaExp x e n = x ^ e % n

/-- RSA_PUB on a usable key and X < N leaves X^65537 mod N in X[0..k), scrubs, and changes nothing else
(43_rsa R151, 43_rsa R153, 43_rsa R155; derived). -/
def Obligations.RsaPubRaisesToThePublicExponent : Prop :=
  decode { off := 0x00C, data := 0x00000020 } = .ok .rsaPub ∧
  ∀ (s : State) (k : Nat), s.KeyUsable k → s.xValue k < s.modulus k →
    ∃ t, exec .rsaPub s = .next t ∧ s.CompletedAs t .none ∧ s.SameHostSide t ∧ s.SameHash t ∧ t.result = s.result ∧
      t.draws = s.draws ∧
      t.xValue k = s.xValue k ^ 65537 % s.modulus k ∧ t.Scrubbed ∧
      (∀ x, x < 0x400 ∨ 0x800 + k ≤ x → t.readByte x = s.readByte x)

/-- RSA_PRIV with a supplied exponent, a usable key and X < N leaves X^D mod N in X[0..k), scrubs, and changes nothing
else
(43_rsa R151, 43_rsa R153, 43_rsa R156; derived). -/
def Obligations.RsaPrivRaisesToThePrivateExponent : Prop :=
  decode { off := 0x00C, data := 0x00000021 } = .ok .rsaPriv ∧
  ∀ (s : State) (k : Nat), s.KeyUsable k → s.dvalid = true → s.xValue k < s.modulus k →
    ∃ t, exec .rsaPriv s = .next t ∧ s.CompletedAs t .none ∧ s.SameHostSide t ∧ s.SameHash t ∧ t.result = s.result ∧
      t.draws = s.draws ∧
      t.xValue k = s.xValue k ^ s.exponent k % s.modulus k ∧ t.Scrubbed ∧
      (∀ x, x < 0x400 ∨ 0x800 + k ≤ x → t.readByte x = s.readByte x)

/-- KEY_CLEAR zeroes N and D, clears DVALID, and changes nothing else
(R157; formalises the rule). -/
def Obligations.KeyClearZeroesTheKey : Prop :=
  decode { off := 0x00C, data := 0x00000022 } = .ok .keyClear ∧
  ∀ s : State, ∃ t, exec .keyClear s = .next t ∧ s.CompletedAs t .none ∧ s.SameHostSide t ∧ s.SameHash t ∧ t.result = s.result ∧
      t.draws = s.draws ∧
      t.Scrubbed ∧ s.SameBytesOutside t 0x400 1024

/-- Every RSA-family command, on every outcome, leaves N and D zero and DVALID 0, and scrubs nothing else
(R153; formalises the rule). -/
def Obligations.RsaFamilyScrubsOnEveryOutcome : Prop :=
  ∀ (s : State) (i : Instr), i = .rsaPub ∨ i = .rsaPriv ∨ i = .pkcsVerify ∨ i = .pkcsSign →
    ∃ t, exec i s = .next t ∧ t.Scrubbed ∧ s.SameHostSide t ∧ s.SameHash t ∧
      (∀ x, x < 0x400 ∨ 0xA00 ≤ x → t.readByte x = s.readByte x) ∧
      (i = .pkcsVerify ∨ t.errcode ≠ .none → ∀ x, 0x800 ≤ x → t.readByte x = s.readByte x)

/-- The RSA-family commands report UNSUPPORTED_SIGTYPE, KEY_INIT, SIGNING, RSA_INPUT_RANGE in that order
(43_rsa R152, 43_rsa R154, 44_pkcs1 R173, 60_exceptions R206, 60_exceptions R208; derived). -/
def Obligations.RsaFamilyReportsTheFirstFailingCheck : Prop :=
  ∀ (s : State) (i : Instr), i = .rsaPub ∨ i = .rsaPriv ∨ i = .pkcsVerify ∨ i = .pkcsSign →
    ∃ t c, exec i s = .next t ∧ s.CompletedAs t c ∧
      (keySizeFor s.sigClass = .invalid → c = .unsupportedSigtype) ∧
      (∀ k, (keySizeFor s.sigClass).bytes = some k →
        (s.readByte 0x400 = 0 ∨ s.modulus k % 2 = 0 → c = .keyInit) ∧
        (s.KeyUsable k →
          (i = .rsaPriv ∨ i = .pkcsSign → s.dvalid = false → c = .signing) ∧
          (i = .rsaPub ∨ (i = .rsaPriv ∧ s.dvalid = true) → s.modulus k ≤ s.xValue k → c = .rsaInputRange) ∧
          (i = .pkcsVerify ∨ (i = .pkcsSign ∧ s.dvalid = true) → c = .none))) ∧
      (c ≠ .none → (∀ x, 0x800 ≤ x → t.readByte x = s.readByte x) ∧ (i = .pkcsVerify → t.result = false)) ∧
      (i ≠ .pkcsVerify → t.result = s.result)

/-- RSA_PRIV then RSA_PUB with the key reloaded restores X, for a consistent key pair
(43_rsa R158; derived). -/
def Obligations.PrivateThenPublicRestoresX : Prop :=
  ∀ (s : State) (k : Nat), s.KeyUsable k → s.dvalid = true → s.xValue k < s.modulus k →
    s.xValue k ^ (65537 * s.exponent k) % s.modulus k = s.xValue k →
    ∃ t u, exec .rsaPriv s = .next t ∧ exec .rsaPub (t.setWindow .n (s.window .n 512)) = .next u ∧
      t.errcode = .none ∧ u.errcode = .none ∧ u.xValue k = s.xValue k

/-- EM is k bytes, 00 01, at least 8 bytes FF, 00, the DigestInfo prefix and the digest, and is below N
(44_pkcs1 R170, 44_pkcs1 R171; derived). -/
def Obligations.EncodedMessageHasItsShape : Prop :=
  ∀ (s : State) (k : Nat), s.KeyUsable k →
    (s.currentEM k).length = k ∧ os2ip (s.currentEM k) < s.modulus k ∧
    ∃ p, 8 ≤ p ∧
      (pkcsHashIdFor s.sigClass = .sha1 → s.currentEM k = [0x00, 0x01] ++ List.replicate p 0xFF ++ [0x00] ++
        [0x30, 0x21, 0x30, 0x09, 0x06, 0x05, 0x2b, 0x0e, 0x03, 0x02, 0x1a, 0x05, 0x00, 0x04, 0x14] ++
        s.readBytes 0x060 20) ∧
      (pkcsHashIdFor s.sigClass = .sha256 → s.currentEM k = [0x00, 0x01] ++ List.replicate p 0xFF ++ [0x00] ++
        [0x30, 0x31, 0x30, 0x0d, 0x06, 0x09, 0x60, 0x86, 0x48, 0x01, 0x65, 0x03, 0x04, 0x02, 0x01, 0x05, 0x00, 0x04,
          0x20] ++ s.readBytes 0x060 32) ∧
      pkcsHashIdFor s.sigClass ≠ .none

/-- PKCS_VERIFY on a usable key sets RESULT exactly when S < N and S^65537 mod N is the encoded message, without error
(44_pkcs1 R172, 44_pkcs1 R173; derived). -/
def Obligations.VerifyComparesTheWholeMessage : Prop :=
  decode { off := 0x00C, data := 0x00000030 } = .ok .pkcsVerify ∧
  ∀ (s : State) (k : Nat), s.KeyUsable k →
    ∃ t, exec .pkcsVerify s = .next t ∧ s.CompletedAs t .none ∧ s.SameHostSide t ∧ s.SameHash t ∧ t.draws = s.draws ∧
      (t.result = true ↔ s.xValue k < s.modulus k ∧
        i2osp (s.xValue k ^ 65537 % s.modulus k) k = s.currentEM k) ∧
      t.Scrubbed ∧ s.SameBytesOutside t 0x400 1024

/-- PKCS_SIGN with a supplied exponent and a usable key leaves EM^D mod N in X[0..k), scrubs, and changes nothing else
(44_pkcs1 R172, 44_pkcs1 R174; derived). -/
def Obligations.SignRaisesTheEncodedMessage : Prop :=
  decode { off := 0x00C, data := 0x00000031 } = .ok .pkcsSign ∧
  ∀ (s : State) (k : Nat), s.KeyUsable k → s.dvalid = true →
    ∃ t, exec .pkcsSign s = .next t ∧ s.CompletedAs t .none ∧ s.SameHostSide t ∧ s.SameHash t ∧ t.result = s.result ∧
      t.draws = s.draws ∧
      t.xValue k = os2ip (s.currentEM k) ^ s.exponent k % s.modulus k ∧ t.Scrubbed ∧
      (∀ x, x < 0x400 ∨ 0x800 + k ≤ x → t.readByte x = s.readByte x)

/-- A signature that PKCS_SIGN produced verifies, for a consistent key pair
(44_pkcs1 R176; derived). -/
def Obligations.SignThenVerifySucceeds : Prop :=
  ∀ (s : State) (k : Nat), s.KeyUsable k → s.dvalid = true →
    os2ip (s.currentEM k) ^ (65537 * s.exponent k) % s.modulus k = os2ip (s.currentEM k) →
    ∃ t u, exec .pkcsSign s = .next t ∧ exec .pkcsVerify (t.setWindow .n (s.window .n 512)) = .next u ∧
      t.errcode = .none ∧ u.errcode = .none ∧ u.result = true

/-- Flipping one bit of a signature that verifies makes PKCS_VERIFY answer RESULT 0 without an error
(44_pkcs1 R173, 44_pkcs1 R176; derived). -/
def Obligations.FlippedSignatureBitFailsVerification : Prop :=
  ∀ (s s' t : State) (k j b D : Nat), s.KeyUsable k → j < k → b < 8 →
    s' = s.storeBytes (0x800 + j) [s.readByte (0x800 + j) ^^^ 1#8 <<< b] →
    s.xValue k ^ (65537 * D) % s.modulus k = s.xValue k →
    (s'.xValue k < s.modulus k → s'.xValue k ^ (65537 * D) % s.modulus k = s'.xValue k) →
    exec .pkcsVerify s = .next t → t.result = true →
    ∃ u, exec .pkcsVerify s' = .next u ∧ u.errcode = .none ∧ u.result = false

/-- Every step keeps the machine's invariant
(10_state R22, 10_state R38, 10_state R44, 43_rsa R153, 60_exceptions R214; derived). -/
def Obligations.StepKeepsTheInvariant : Prop :=
  ∀ s t : State, s.Inv → step s = .next t → t.Inv

/-- The state after reset has the machine's invariant, for every legal choice of parameters
(70_reset R232, 10_state R44; derived). -/
def Obligations.ResetHasTheInvariant : Prop :=
  State.reset.Inv ∧ ∀ c : Config, c.wellFormed = true → (State.resetWith c).Inv

/-- A step never refuses, and faults only on a bus access that the bus refuses
(20_memory R59, 60_exceptions R200, 60_exceptions R210; derived). -/
def Obligations.OnlyRefusedAccessesStopTheMachine : Prop :=
  ∀ s : State, (∀ r, step s ≠ .refused r) ∧
    (∀ f, step s = .fault f → (∃ a, f = .busError a ∧ a.offset s.cfg = none) ∧
      (∀ t ts, s.turns = t :: ts → ∃ m, t = .host m))

/-- A command in flight completes within as many steps as the schedule has turns, and one more, unless reset or a bus
error ends it
(60_exceptions R204, 70_reset R231; derived). -/
def Obligations.EveryIssuedCommandCompletes : Prop :=
  ∀ (s : State) (w : Word), s.pending = some w → Turn.reset ∉ s.turns →
    (∀ n, n ≤ s.turns.length + 1 → ∃ u : State, Host.Core.run Sys2Proof.core n s = .next u) →
    ∃ (n : Nat) (t : State), n ≤ s.turns.length + 1 ∧ Host.Core.run Sys2Proof.core n s = .next t ∧
      t.pending = none ∧ t.done = true

/-- With nothing in flight, an empty schedule and no host statement left the block waits, as at reset (the model's
choices, logs 5 and 6)
(70_reset R233, 20_memory R55; derived). -/
def Obligations.IdleBlockWaits : Prop :=
  (∀ s : State, s.turns = [] → s.pending = none → (∀ x ∈ s.masters, x.prog = []) → step s = .next s) ∧
  step State.reset = .next State.reset

/-- A POLL statement reads its offset once a turn, left when the masked word is the awaited one (outside the block a bus
error: log 7)
(30_encoding R86, 20_memory R59, 20_memory R60; derived). -/
def Obligations.PollStatementRepeatsUntilItsConditionHolds : Prop :=
  ∀ (s : State) (m : Nat) (ts : List Turn) (x : Master) (off : Nat) (mask val : Word) (rest : List HostStep),
    s.turns = .host m :: ts → s.masters[m]? = some x → x.prog = .poll (s.cfg.base + off) mask val :: rest →
    (off % 4 = 0 ∧ off < 0x2000 → ∃ t, step s = .next t ∧
      t.masters[m]? = some (if (s.busRead off).1 &&& mask = val then { x with prog := rest } else x) ∧
      (∀ j, j ≠ m → t.masters[j]? = s.masters[j]?) ∧
      t = { s with turns := ts, draws := t.draws, masters := t.masters }) ∧
    (¬ (off % 4 = 0 ∧ off < 0x2000) →
      step s = .fault (.busError { addr := s.cfg.base + off, shape := .word, op := .read }))

/-- DUMP W@j, n takes ceil(n/4) reads and yields that many words of the window as bytes; KEY and D yield zeros
(30_encoding R86, 20_memory R56, 10_state R33, 10_state R38; derived). -/
def Obligations.DumpYieldsTheWindowBytes : Prop :=
  ∀ (s : State) (m : Nat) (ts : List Turn) (x : Master) (rest : List HostStep) (w : Window) (j n c : Nat),
    c = (n + 3) / 4 → s.busy = false → s.cfg.dbufBytes ≤ 4096 → j % 4 = 0 → j + 4 * c ≤ w.size s.cfg →
    s.masters[m]? = some x → x.prog = dump s.cfg.base w j n ++ rest → s.turns = List.replicate c (.host m) ++ ts →
    ∃ (t : State) (rs : List Word), Host.Core.run Sys2Proof.core c s = .next t ∧ rs.length = c ∧
      t.masters[m]? = some { prog := rest, reads := x.reads ++ rs } ∧
      dumpBytes n (x.reads ++ rs) =
        (if w = .key ∨ w = .d then zeros (4 * c) else s.readBytes (w.base + j) (4 * c)) ∧
      (∀ i, i ≠ m → t.masters[i]? = s.masters[i]?) ∧ t = { s with turns := ts, masters := t.masters }
end

