-- ==== Sys2Proof/Laws/Memory.lean ====
section
/-! SUPPORT. The byte store: what a read gives after a store, and that a store keeps the canonical form. -/

namespace Sys2Proof.Machine

open Memory

theorem Memory.lookup_append (m m' : List Host.Cell) (x : Nat) :
    lookup (m ++ m') x = (lookup m x).or (lookup m' x) := by
  induction m with
  | nil => simp [lookup]
  | cons c cs ih => by_cases h : c.1 = x <;> simp [lookup, h, ih]

theorem Memory.lookup_filter (p : Nat → Bool) (m : List Host.Cell) (x : Nat) :
    lookup (m.filter (fun c => p c.1)) x = if p x then lookup m x else none := by
  induction m with
  | nil => simp [lookup]
  | cons c cs ih =>
    by_cases hp : p c.1 = true <;> by_cases hx : c.1 = x
    · subst hx; simp [lookup, hp]
    · simp [lookup, hp, hx, ih]
    · subst hx; simp [hp, ih]
    · simp [lookup, hp, hx, ih]

/-- What the cells of a byte string list: each byte that differs from its stated reset value. -/
theorem Memory.lookup_cells (a : Nat) (bs : List Byte) (x : Nat) :
    lookup (cells a bs) x =
      if a ≤ x ∧ x < a + bs.length ∧ resetValue x ≠ some (bs.getD (x - a) 0) then some (bs.getD (x - a) 0) else none := by
  induction bs generalizing a with
  | nil => simp [cells, lookup]; omega
  | cons b bs ih =>
    rcases Nat.lt_trichotomy x a with hx | hx | hx
    · have h1 : ¬ a ≤ x := by omega
      have h2 : ¬ a + 1 ≤ x := by omega
      have h3 : ¬ a = x := by omega
      by_cases hr : resetValue a = some b <;> simp [cells, lookup, hr, ih, h1, h2, h3]
    · subst hx
      by_cases hr : resetValue x = some b <;> simp [cells, lookup, hr, ih]
    · obtain ⟨d, rfl⟩ : ∃ d, x = a + 1 + d := ⟨x - (a + 1), by omega⟩
      have h3 : ¬ a = a + 1 + d := by omega
      have e1 : a + 1 + d - (a + 1) = d := by omega
      have e2 : a + 1 + d - a = d + 1 := by omega
      have e3 : (a + 1 + d < a + 1 + bs.length) ↔ (a + 1 + d < a + (bs.length + 1)) := by omega
      by_cases hr : resetValue a = some b <;>
        simp only [cells, lookup, hr, ih, h3, e1, e2, e3, if_true, if_false, List.length_cons, List.getD_cons_succ] <;>
        simp <;> congr 1 <;> simp <;> omega

/-- A lookup after a store: inside the stored bytes the new byte unless it is the stated reset value, elsewhere as
before. -/
theorem Memory.lookup_store (m : List Host.Cell) (a : Nat) (bs : List Byte) (x : Nat) :
    lookup (store m a bs) x =
      if a ≤ x ∧ x < a + bs.length then
        (if resetValue x = some (bs.getD (x - a) 0) then none else some (bs.getD (x - a) 0))
      else lookup m x := by
  unfold store
  rw [lookup_append, lookup_append, lookup_filter (fun y => decide (y < a)),
    lookup_filter (fun y => decide (a + bs.length ≤ y)), lookup_cells]
  by_cases h1 : x < a
  · have : ¬ a ≤ x := by omega
    have h2 : ¬ a + bs.length ≤ x := by omega
    simp [h1, this, h2]
  · by_cases h2 : x < a + bs.length
    · have h3 : a ≤ x := by omega
      have h4 : ¬ a + bs.length ≤ x := by omega
      by_cases hr : resetValue x = some (bs.getD (x - a) 0) <;> simp [h1, h2, h3, h4, hr]
    · have h3 : a ≤ x := by omega
      have h4 : a + bs.length ≤ x := by omega
      simp [h1, h2, h3, h4]

/-- A read after a store: inside the stored bytes the stored byte, everywhere else what it was. -/
theorem State.readByte_storeBytes (s : State) (a : Nat) (bs : List Byte) (x : Nat) :
    (s.storeBytes a bs).readByte x =
      if a ≤ x ∧ x < a + bs.length then bs.getD (x - a) 0 else s.readByte x := by
  unfold State.readByte
  simp only [State.storeBytes, lookup_store]
  by_cases hx : a ≤ x ∧ x < a + bs.length
  · by_cases hr : resetValue x = some (bs.getD (x - a) 0)
    · simp only [hx, hr, and_self, if_true]
    · simp only [hx, hr, and_self, if_true, if_false]
  · simp only [hx, if_false]

theorem State.readByte_storeBytes_outside (s : State) (a : Nat) (bs : List Byte) (x : Nat)
    (h : x < a ∨ a + bs.length ≤ x) : (s.storeBytes a bs).readByte x = s.readByte x := by
  rw [State.readByte_storeBytes, if_neg]; omega

theorem State.readByte_setWindow (s : State) (w : Window) (bs : List Byte) (x : Nat) :
    (s.setWindow w bs).readByte x =
      if w.base ≤ x ∧ x < w.base + bs.length then bs.getD (x - w.base) 0 else s.readByte x :=
  State.readByte_storeBytes s w.base bs x

/-- Reading depends only on the listed bytes and the number of the reset. -/
theorem State.readByte_congr {s t : State} (hm : t.mem = s.mem) (hr : t.resets = s.resets) (a : Nat) :
    t.readByte a = s.readByte a := by
  unfold State.readByte; rw [hm, hr]

@[simp] theorem State.length_readBytes (s : State) (a n : Nat) : (s.readBytes a n).length = n := by
  simp [State.readBytes, gen]

/-- A whole read back of what was stored. -/
theorem State.readBytes_storeBytes (s : State) (a : Nat) (bs : List Byte) :
    (s.storeBytes a bs).readBytes a bs.length = bs := by
  apply List.ext_getElem
  · simp
  · intro i h1 h2
    simp only [State.readBytes, gen, List.getElem_map, List.getElem_range, State.readByte_storeBytes]
    rw [if_pos (by omega)]
    simp [h2]

/-- A read of bytes that a store does not reach. -/
theorem State.readBytes_storeBytes_outside (s : State) (a : Nat) (bs : List Byte) (x n : Nat)
    (h : x + n ≤ a ∨ a + bs.length ≤ x) : (s.storeBytes a bs).readBytes x n = s.readBytes x n := by
  refine List.map_congr_left fun j hj => s.readByte_storeBytes_outside a bs (x + j) ?_
  have := List.mem_range.mp hj
  omega

/-! ### The canonical form -/

theorem Memory.rising_iff (m : List Host.Cell) : rising m = true ↔ m.Pairwise (fun c c' => c.1 < c'.1) := by
  induction m with
  | nil => simp [rising]
  | cons c cs ih =>
    cases cs with
    | nil => simp [rising]
    | cons c' cs =>
      simp only [rising, Bool.and_eq_true, decide_eq_true_eq, ih, List.pairwise_cons]
      constructor
      · rintro ⟨h, h1, h2⟩
        refine ⟨?_, h1, h2⟩
        intro y hy
        rcases List.mem_cons.mp hy with rfl | hy
        · exact h
        · exact lt_trans h (h1 y hy)
      · rintro ⟨h, h1, h2⟩
        exact ⟨h c' (by simp), h1, h2⟩

/-- Where the cells of a byte string lie and what they list. -/
theorem Memory.mem_cells {a : Nat} {bs : List Byte} {c : Host.Cell} (h : c ∈ cells a bs) :
    a ≤ c.1 ∧ c.1 < a + bs.length ∧ resetValue c.1 ≠ some c.2 := by
  induction bs generalizing a with
  | nil => simp [cells] at h
  | cons b bs ih =>
    by_cases hr : resetValue a = some b
    · rw [cells, if_pos hr] at h
      have := ih h
      simp only [List.length_cons]
      exact ⟨by omega, by omega, this.2.2⟩
    · rw [cells, if_neg hr] at h
      rcases List.mem_cons.mp h with rfl | h
      · simp only [List.length_cons]; exact ⟨by omega, by omega, hr⟩
      · have := ih h
        simp only [List.length_cons]
        exact ⟨by omega, by omega, this.2.2⟩

theorem Memory.cells_pairwise (a : Nat) (bs : List Byte) : (cells a bs).Pairwise (fun c c' => c.1 < c'.1) := by
  induction bs generalizing a with
  | nil => simp [cells]
  | cons b bs ih =>
    rw [cells]
    split
    · exact ih (a + 1)
    · refine List.pairwise_cons.mpr ⟨fun c hc => ?_, ih (a + 1)⟩
      have := (mem_cells hc).1
      show a < c.1
      omega

/-- What a memory in canonical form is: offsets rising, each listed byte stored in a window and not at its stated reset
value. -/
theorem Memory.wf_iff (m : List Host.Cell) :
    wf m = true ↔ m.Pairwise (fun c c' => c.1 < c'.1) ∧
      ∀ c ∈ m, isStorage c.1 = true ∧ resetValue c.1 ≠ some c.2 := by
  unfold wf
  rw [Bool.and_eq_true, rising_iff, List.all_eq_true]
  simp only [Bool.and_eq_true, decide_eq_true_eq]

/-- Which cells a memory lists after a store. -/
theorem Memory.mem_store {m : List Host.Cell} {a : Nat} {bs : List Byte} {c : Host.Cell} (h : c ∈ store m a bs) :
    (c ∈ m ∧ (c.1 < a ∨ a + bs.length ≤ c.1)) ∨ c ∈ cells a bs := by
  unfold store at h
  rcases List.mem_append.mp h with h | h
  · rcases List.mem_append.mp h with h | h
    · rw [List.mem_filter] at h; left; exact ⟨h.1, .inl (by simpa using h.2)⟩
    · exact .inr h
  · rw [List.mem_filter] at h; left; exact ⟨h.1, .inr (by simpa using h.2)⟩

/-- A store into windows keeps the canonical form. -/
theorem Memory.store_wf {m : List Host.Cell} {a : Nat} {bs : List Byte} (hm : wf m = true)
    (hs : ∀ x, a ≤ x → x < a + bs.length → isStorage x = true) : wf (store m a bs) = true := by
  rw [wf_iff] at hm ⊢
  constructor
  · unfold store
    rw [List.pairwise_append, List.pairwise_append]
    refine ⟨⟨hm.1.filter _, cells_pairwise a bs, ?_⟩, hm.1.filter _, ?_⟩
    · intro c hc c' hc'
      have h1 : c.1 < a := by simpa using (List.mem_filter.mp hc).2
      have h2 := (mem_cells hc').1
      omega
    · intro c hc c' hc'
      have h2 : a + bs.length ≤ c'.1 := by simpa using (List.mem_filter.mp hc').2
      rcases List.mem_append.mp hc with hc | hc
      · have h1 : c.1 < a := by simpa using (List.mem_filter.mp hc).2
        omega
      · have := (mem_cells hc).2.1
        omega
  · intro c hc
    rcases mem_store hc with h | h
    · exact hm.2 c h.1
    · have := mem_cells h
      exact ⟨hs c.1 this.1 this.2.1, this.2.2⟩

/-- The reset memory is canonical. -/
theorem Memory.wf_reset : wf State.reset.mem = true := by decide

end Sys2Proof.Machine
end

