-- ==== Sys2Proof/Laws/State.lean ====
section
/-! SUPPORT. One lemma per field per update of the state, each true by rfl. -/

namespace Sys2Proof.Machine

/-! ### State.storeBytes -/

@[simp] theorem State.storeBytes_cfg (a : Nat) (bs : List Byte) (s : State) : (s.storeBytes a bs).cfg = s.cfg := rfl
@[simp] theorem State.storeBytes_ie (a : Nat) (bs : List Byte) (s : State) : (s.storeBytes a bs).ie = s.ie := rfl
@[simp] theorem State.storeBytes_done (a : Nat) (bs : List Byte) (s : State) : (s.storeBytes a bs).done = s.done := rfl
@[simp] theorem State.storeBytes_err (a : Nat) (bs : List Byte) (s : State) : (s.storeBytes a bs).err = s.err := rfl
@[simp] theorem State.storeBytes_perr (a : Nat) (bs : List Byte) (s : State) : (s.storeBytes a bs).perr = s.perr := rfl
@[simp] theorem State.storeBytes_hact (a : Nat) (bs : List Byte) (s : State) : (s.storeBytes a bs).hact = s.hact := rfl
@[simp] theorem State.storeBytes_dvalid (a : Nat) (bs : List Byte) (s : State) : (s.storeBytes a bs).dvalid = s.dvalid := rfl
@[simp] theorem State.storeBytes_result (a : Nat) (bs : List Byte) (s : State) : (s.storeBytes a bs).result = s.result := rfl
@[simp] theorem State.storeBytes_errcode (a : Nat) (bs : List Byte) (s : State) : (s.storeBytes a bs).errcode = s.errcode := rfl
@[simp] theorem State.storeBytes_halg (a : Nat) (bs : List Byte) (s : State) : (s.storeBytes a bs).halg = s.halg := rfl
@[simp] theorem State.storeBytes_tag (a : Nat) (bs : List Byte) (s : State) : (s.storeBytes a bs).tag = s.tag := rfl
@[simp] theorem State.storeBytes_len (a : Nat) (bs : List Byte) (s : State) : (s.storeBytes a bs).len = s.len := rfl
@[simp] theorem State.storeBytes_offlo (a : Nat) (bs : List Byte) (s : State) : (s.storeBytes a bs).offlo = s.offlo := rfl
@[simp] theorem State.storeBytes_offhi (a : Nat) (bs : List Byte) (s : State) : (s.storeBytes a bs).offhi = s.offhi := rfl
@[simp] theorem State.storeBytes_mem (a : Nat) (bs : List Byte) (s : State) : (s.storeBytes a bs).mem = Memory.store s.mem a bs := rfl
@[simp] theorem State.storeBytes_h (a : Nat) (bs : List Byte) (s : State) : (s.storeBytes a bs).h = s.h := rfl
@[simp] theorem State.storeBytes_hbuf (a : Nat) (bs : List Byte) (s : State) : (s.storeBytes a bs).hbuf = s.hbuf := rfl
@[simp] theorem State.storeBytes_hlen (a : Nat) (bs : List Byte) (s : State) : (s.storeBytes a bs).hlen = s.hlen := rfl
@[simp] theorem State.storeBytes_pending (a : Nat) (bs : List Byte) (s : State) : (s.storeBytes a bs).pending = s.pending := rfl
@[simp] theorem State.storeBytes_resets (a : Nat) (bs : List Byte) (s : State) : (s.storeBytes a bs).resets = s.resets := rfl
@[simp] theorem State.storeBytes_draws (a : Nat) (bs : List Byte) (s : State) : (s.storeBytes a bs).draws = s.draws := rfl
@[simp] theorem State.storeBytes_masters (a : Nat) (bs : List Byte) (s : State) : (s.storeBytes a bs).masters = s.masters := rfl
@[simp] theorem State.storeBytes_turns (a : Nat) (bs : List Byte) (s : State) : (s.storeBytes a bs).turns = s.turns := rfl

/-! ### State.setWindow -/

@[simp] theorem State.setWindow_cfg (w : Window) (bs : List Byte) (s : State) : (s.setWindow w bs).cfg = s.cfg := rfl
@[simp] theorem State.setWindow_ie (w : Window) (bs : List Byte) (s : State) : (s.setWindow w bs).ie = s.ie := rfl
@[simp] theorem State.setWindow_done (w : Window) (bs : List Byte) (s : State) : (s.setWindow w bs).done = s.done := rfl
@[simp] theorem State.setWindow_err (w : Window) (bs : List Byte) (s : State) : (s.setWindow w bs).err = s.err := rfl
@[simp] theorem State.setWindow_perr (w : Window) (bs : List Byte) (s : State) : (s.setWindow w bs).perr = s.perr := rfl
@[simp] theorem State.setWindow_hact (w : Window) (bs : List Byte) (s : State) : (s.setWindow w bs).hact = s.hact := rfl
@[simp] theorem State.setWindow_dvalid (w : Window) (bs : List Byte) (s : State) : (s.setWindow w bs).dvalid = s.dvalid := rfl
@[simp] theorem State.setWindow_result (w : Window) (bs : List Byte) (s : State) : (s.setWindow w bs).result = s.result := rfl
@[simp] theorem State.setWindow_errcode (w : Window) (bs : List Byte) (s : State) : (s.setWindow w bs).errcode = s.errcode := rfl
@[simp] theorem State.setWindow_halg (w : Window) (bs : List Byte) (s : State) : (s.setWindow w bs).halg = s.halg := rfl
@[simp] theorem State.setWindow_tag (w : Window) (bs : List Byte) (s : State) : (s.setWindow w bs).tag = s.tag := rfl
@[simp] theorem State.setWindow_len (w : Window) (bs : List Byte) (s : State) : (s.setWindow w bs).len = s.len := rfl
@[simp] theorem State.setWindow_offlo (w : Window) (bs : List Byte) (s : State) : (s.setWindow w bs).offlo = s.offlo := rfl
@[simp] theorem State.setWindow_offhi (w : Window) (bs : List Byte) (s : State) : (s.setWindow w bs).offhi = s.offhi := rfl
@[simp] theorem State.setWindow_mem (w : Window) (bs : List Byte) (s : State) : (s.setWindow w bs).mem = Memory.store s.mem w.base bs := rfl
@[simp] theorem State.setWindow_h (w : Window) (bs : List Byte) (s : State) : (s.setWindow w bs).h = s.h := rfl
@[simp] theorem State.setWindow_hbuf (w : Window) (bs : List Byte) (s : State) : (s.setWindow w bs).hbuf = s.hbuf := rfl
@[simp] theorem State.setWindow_hlen (w : Window) (bs : List Byte) (s : State) : (s.setWindow w bs).hlen = s.hlen := rfl
@[simp] theorem State.setWindow_pending (w : Window) (bs : List Byte) (s : State) : (s.setWindow w bs).pending = s.pending := rfl
@[simp] theorem State.setWindow_resets (w : Window) (bs : List Byte) (s : State) : (s.setWindow w bs).resets = s.resets := rfl
@[simp] theorem State.setWindow_draws (w : Window) (bs : List Byte) (s : State) : (s.setWindow w bs).draws = s.draws := rfl
@[simp] theorem State.setWindow_masters (w : Window) (bs : List Byte) (s : State) : (s.setWindow w bs).masters = s.masters := rfl
@[simp] theorem State.setWindow_turns (w : Window) (bs : List Byte) (s : State) : (s.setWindow w bs).turns = s.turns := rfl

/-! ### State.scrub -/

@[simp] theorem State.scrub_cfg (s : State) : (s.scrub).cfg = s.cfg := rfl
@[simp] theorem State.scrub_ie (s : State) : (s.scrub).ie = s.ie := rfl
@[simp] theorem State.scrub_done (s : State) : (s.scrub).done = s.done := rfl
@[simp] theorem State.scrub_err (s : State) : (s.scrub).err = s.err := rfl
@[simp] theorem State.scrub_perr (s : State) : (s.scrub).perr = s.perr := rfl
@[simp] theorem State.scrub_hact (s : State) : (s.scrub).hact = s.hact := rfl
@[simp] theorem State.scrub_dvalid (s : State) : (s.scrub).dvalid = false := rfl
@[simp] theorem State.scrub_result (s : State) : (s.scrub).result = s.result := rfl
@[simp] theorem State.scrub_errcode (s : State) : (s.scrub).errcode = s.errcode := rfl
@[simp] theorem State.scrub_halg (s : State) : (s.scrub).halg = s.halg := rfl
@[simp] theorem State.scrub_tag (s : State) : (s.scrub).tag = s.tag := rfl
@[simp] theorem State.scrub_len (s : State) : (s.scrub).len = s.len := rfl
@[simp] theorem State.scrub_offlo (s : State) : (s.scrub).offlo = s.offlo := rfl
@[simp] theorem State.scrub_offhi (s : State) : (s.scrub).offhi = s.offhi := rfl
@[simp] theorem State.scrub_mem (s : State) : (s.scrub).mem = Memory.store (Memory.store s.mem Window.n.base (zeros 512)) Window.d.base (zeros 512) := rfl
@[simp] theorem State.scrub_h (s : State) : (s.scrub).h = s.h := rfl
@[simp] theorem State.scrub_hbuf (s : State) : (s.scrub).hbuf = s.hbuf := rfl
@[simp] theorem State.scrub_hlen (s : State) : (s.scrub).hlen = s.hlen := rfl
@[simp] theorem State.scrub_pending (s : State) : (s.scrub).pending = s.pending := rfl
@[simp] theorem State.scrub_resets (s : State) : (s.scrub).resets = s.resets := rfl
@[simp] theorem State.scrub_draws (s : State) : (s.scrub).draws = s.draws := rfl
@[simp] theorem State.scrub_masters (s : State) : (s.scrub).masters = s.masters := rfl
@[simp] theorem State.scrub_turns (s : State) : (s.scrub).turns = s.turns := rfl

/-! ### State.issue -/

@[simp] theorem State.issue_cfg (v : Word) (s : State) : (s.issue v).cfg = s.cfg := rfl
@[simp] theorem State.issue_ie (v : Word) (s : State) : (s.issue v).ie = s.ie := rfl
@[simp] theorem State.issue_done (v : Word) (s : State) : (s.issue v).done = false := rfl
@[simp] theorem State.issue_err (v : Word) (s : State) : (s.issue v).err = s.err := rfl
@[simp] theorem State.issue_perr (v : Word) (s : State) : (s.issue v).perr = s.perr := rfl
@[simp] theorem State.issue_hact (v : Word) (s : State) : (s.issue v).hact = s.hact := rfl
@[simp] theorem State.issue_dvalid (v : Word) (s : State) : (s.issue v).dvalid = s.dvalid := rfl
@[simp] theorem State.issue_result (v : Word) (s : State) : (s.issue v).result = s.result := rfl
@[simp] theorem State.issue_errcode (v : Word) (s : State) : (s.issue v).errcode = s.errcode := rfl
@[simp] theorem State.issue_halg (v : Word) (s : State) : (s.issue v).halg = s.halg := rfl
@[simp] theorem State.issue_tag (v : Word) (s : State) : (s.issue v).tag = s.tag := rfl
@[simp] theorem State.issue_len (v : Word) (s : State) : (s.issue v).len = s.len := rfl
@[simp] theorem State.issue_offlo (v : Word) (s : State) : (s.issue v).offlo = s.offlo := rfl
@[simp] theorem State.issue_offhi (v : Word) (s : State) : (s.issue v).offhi = s.offhi := rfl
@[simp] theorem State.issue_mem (v : Word) (s : State) : (s.issue v).mem = s.mem := rfl
@[simp] theorem State.issue_h (v : Word) (s : State) : (s.issue v).h = s.h := rfl
@[simp] theorem State.issue_hbuf (v : Word) (s : State) : (s.issue v).hbuf = s.hbuf := rfl
@[simp] theorem State.issue_hlen (v : Word) (s : State) : (s.issue v).hlen = s.hlen := rfl
@[simp] theorem State.issue_pending (v : Word) (s : State) : (s.issue v).pending = some v := rfl
@[simp] theorem State.issue_resets (v : Word) (s : State) : (s.issue v).resets = s.resets := rfl
@[simp] theorem State.issue_draws (v : Word) (s : State) : (s.issue v).draws = s.draws := rfl
@[simp] theorem State.issue_masters (v : Word) (s : State) : (s.issue v).masters = s.masters := rfl
@[simp] theorem State.issue_turns (v : Word) (s : State) : (s.issue v).turns = s.turns := rfl

/-! ### State.complete -/

@[simp] theorem State.complete_cfg (c : ErrCode) (s : State) : (s.complete c).cfg = s.cfg := rfl
@[simp] theorem State.complete_ie (c : ErrCode) (s : State) : (s.complete c).ie = s.ie := rfl
@[simp] theorem State.complete_done (c : ErrCode) (s : State) : (s.complete c).done = true := rfl
@[simp] theorem State.complete_err (c : ErrCode) (s : State) : (s.complete c).err = (s.err || decide (c ≠ .none)) := rfl
@[simp] theorem State.complete_perr (c : ErrCode) (s : State) : (s.complete c).perr = s.perr := rfl
@[simp] theorem State.complete_hact (c : ErrCode) (s : State) : (s.complete c).hact = s.hact := rfl
@[simp] theorem State.complete_dvalid (c : ErrCode) (s : State) : (s.complete c).dvalid = s.dvalid := rfl
@[simp] theorem State.complete_result (c : ErrCode) (s : State) : (s.complete c).result = s.result := rfl
@[simp] theorem State.complete_errcode (c : ErrCode) (s : State) : (s.complete c).errcode = c := rfl
@[simp] theorem State.complete_halg (c : ErrCode) (s : State) : (s.complete c).halg = s.halg := rfl
@[simp] theorem State.complete_tag (c : ErrCode) (s : State) : (s.complete c).tag = s.tag := rfl
@[simp] theorem State.complete_len (c : ErrCode) (s : State) : (s.complete c).len = s.len := rfl
@[simp] theorem State.complete_offlo (c : ErrCode) (s : State) : (s.complete c).offlo = s.offlo := rfl
@[simp] theorem State.complete_offhi (c : ErrCode) (s : State) : (s.complete c).offhi = s.offhi := rfl
@[simp] theorem State.complete_mem (c : ErrCode) (s : State) : (s.complete c).mem = s.mem := rfl
@[simp] theorem State.complete_h (c : ErrCode) (s : State) : (s.complete c).h = s.h := rfl
@[simp] theorem State.complete_hbuf (c : ErrCode) (s : State) : (s.complete c).hbuf = s.hbuf := rfl
@[simp] theorem State.complete_hlen (c : ErrCode) (s : State) : (s.complete c).hlen = s.hlen := rfl
@[simp] theorem State.complete_pending (c : ErrCode) (s : State) : (s.complete c).pending = none := rfl
@[simp] theorem State.complete_resets (c : ErrCode) (s : State) : (s.complete c).resets = s.resets := rfl
@[simp] theorem State.complete_draws (c : ErrCode) (s : State) : (s.complete c).draws = s.draws := rfl
@[simp] theorem State.complete_masters (c : ErrCode) (s : State) : (s.complete c).masters = s.masters := rfl
@[simp] theorem State.complete_turns (c : ErrCode) (s : State) : (s.complete c).turns = s.turns := rfl

/-! ### State.raise -/

@[simp] theorem State.raise_cfg (c : ErrCode) (s : State) : (s.raise c).cfg = s.cfg := rfl
@[simp] theorem State.raise_ie (c : ErrCode) (s : State) : (s.raise c).ie = s.ie := rfl
@[simp] theorem State.raise_done (c : ErrCode) (s : State) : (s.raise c).done = true := rfl
@[simp] theorem State.raise_err (c : ErrCode) (s : State) : (s.raise c).err = (s.err || decide (c ≠ .none)) := rfl
@[simp] theorem State.raise_perr (c : ErrCode) (s : State) : (s.raise c).perr = s.perr := rfl
@[simp] theorem State.raise_hact (c : ErrCode) (s : State) : (s.raise c).hact = s.hact := rfl
@[simp] theorem State.raise_dvalid (c : ErrCode) (s : State) : (s.raise c).dvalid = s.dvalid := rfl
@[simp] theorem State.raise_result (c : ErrCode) (s : State) : (s.raise c).result = s.result := rfl
@[simp] theorem State.raise_errcode (c : ErrCode) (s : State) : (s.raise c).errcode = c := rfl
@[simp] theorem State.raise_halg (c : ErrCode) (s : State) : (s.raise c).halg = s.halg := rfl
@[simp] theorem State.raise_tag (c : ErrCode) (s : State) : (s.raise c).tag = s.tag := rfl
@[simp] theorem State.raise_len (c : ErrCode) (s : State) : (s.raise c).len = s.len := rfl
@[simp] theorem State.raise_offlo (c : ErrCode) (s : State) : (s.raise c).offlo = s.offlo := rfl
@[simp] theorem State.raise_offhi (c : ErrCode) (s : State) : (s.raise c).offhi = s.offhi := rfl
@[simp] theorem State.raise_mem (c : ErrCode) (s : State) : (s.raise c).mem = s.mem := rfl
@[simp] theorem State.raise_h (c : ErrCode) (s : State) : (s.raise c).h = s.h := rfl
@[simp] theorem State.raise_hbuf (c : ErrCode) (s : State) : (s.raise c).hbuf = s.hbuf := rfl
@[simp] theorem State.raise_hlen (c : ErrCode) (s : State) : (s.raise c).hlen = s.hlen := rfl
@[simp] theorem State.raise_pending (c : ErrCode) (s : State) : (s.raise c).pending = none := rfl
@[simp] theorem State.raise_resets (c : ErrCode) (s : State) : (s.raise c).resets = s.resets := rfl
@[simp] theorem State.raise_draws (c : ErrCode) (s : State) : (s.raise c).draws = s.draws := rfl
@[simp] theorem State.raise_masters (c : ErrCode) (s : State) : (s.raise c).masters = s.masters := rfl
@[simp] theorem State.raise_turns (c : ErrCode) (s : State) : (s.raise c).turns = s.turns := rfl

/-! ### State.dropWrite -/

@[simp] theorem State.dropWrite_cfg (s : State) : (s.dropWrite).cfg = s.cfg := rfl
@[simp] theorem State.dropWrite_ie (s : State) : (s.dropWrite).ie = s.ie := rfl
@[simp] theorem State.dropWrite_done (s : State) : (s.dropWrite).done = s.done := rfl
@[simp] theorem State.dropWrite_err (s : State) : (s.dropWrite).err = s.err := rfl
@[simp] theorem State.dropWrite_perr (s : State) : (s.dropWrite).perr = true := rfl
@[simp] theorem State.dropWrite_hact (s : State) : (s.dropWrite).hact = s.hact := rfl
@[simp] theorem State.dropWrite_dvalid (s : State) : (s.dropWrite).dvalid = s.dvalid := rfl
@[simp] theorem State.dropWrite_result (s : State) : (s.dropWrite).result = s.result := rfl
@[simp] theorem State.dropWrite_errcode (s : State) : (s.dropWrite).errcode = s.errcode := rfl
@[simp] theorem State.dropWrite_halg (s : State) : (s.dropWrite).halg = s.halg := rfl
@[simp] theorem State.dropWrite_tag (s : State) : (s.dropWrite).tag = s.tag := rfl
@[simp] theorem State.dropWrite_len (s : State) : (s.dropWrite).len = s.len := rfl
@[simp] theorem State.dropWrite_offlo (s : State) : (s.dropWrite).offlo = s.offlo := rfl
@[simp] theorem State.dropWrite_offhi (s : State) : (s.dropWrite).offhi = s.offhi := rfl
@[simp] theorem State.dropWrite_mem (s : State) : (s.dropWrite).mem = s.mem := rfl
@[simp] theorem State.dropWrite_h (s : State) : (s.dropWrite).h = s.h := rfl
@[simp] theorem State.dropWrite_hbuf (s : State) : (s.dropWrite).hbuf = s.hbuf := rfl
@[simp] theorem State.dropWrite_hlen (s : State) : (s.dropWrite).hlen = s.hlen := rfl
@[simp] theorem State.dropWrite_pending (s : State) : (s.dropWrite).pending = s.pending := rfl
@[simp] theorem State.dropWrite_resets (s : State) : (s.dropWrite).resets = s.resets := rfl
@[simp] theorem State.dropWrite_draws (s : State) : (s.dropWrite).draws = s.draws := rfl
@[simp] theorem State.dropWrite_masters (s : State) : (s.dropWrite).masters = s.masters := rfl
@[simp] theorem State.dropWrite_turns (s : State) : (s.dropWrite).turns = s.turns := rfl

/-! ### State.undefineH -/

@[simp] theorem State.undefineH_cfg (s : State) : (s.undefineH).cfg = s.cfg := rfl
@[simp] theorem State.undefineH_ie (s : State) : (s.undefineH).ie = s.ie := rfl
@[simp] theorem State.undefineH_done (s : State) : (s.undefineH).done = s.done := rfl
@[simp] theorem State.undefineH_err (s : State) : (s.undefineH).err = s.err := rfl
@[simp] theorem State.undefineH_perr (s : State) : (s.undefineH).perr = s.perr := rfl
@[simp] theorem State.undefineH_hact (s : State) : (s.undefineH).hact = s.hact := rfl
@[simp] theorem State.undefineH_dvalid (s : State) : (s.undefineH).dvalid = s.dvalid := rfl
@[simp] theorem State.undefineH_result (s : State) : (s.undefineH).result = s.result := rfl
@[simp] theorem State.undefineH_errcode (s : State) : (s.undefineH).errcode = s.errcode := rfl
@[simp] theorem State.undefineH_halg (s : State) : (s.undefineH).halg = s.halg := rfl
@[simp] theorem State.undefineH_tag (s : State) : (s.undefineH).tag = s.tag := rfl
@[simp] theorem State.undefineH_len (s : State) : (s.undefineH).len = s.len := rfl
@[simp] theorem State.undefineH_offlo (s : State) : (s.undefineH).offlo = s.offlo := rfl
@[simp] theorem State.undefineH_offhi (s : State) : (s.undefineH).offhi = s.offhi := rfl
@[simp] theorem State.undefineH_mem (s : State) : (s.undefineH).mem = s.mem := rfl
@[simp] theorem State.undefineH_h (s : State) : (s.undefineH).h = (List.range s.h.length).map (Config.undefinedH s.draws) := rfl
@[simp] theorem State.undefineH_hbuf (s : State) : (s.undefineH).hbuf = s.hbuf := rfl
@[simp] theorem State.undefineH_hlen (s : State) : (s.undefineH).hlen = s.hlen := rfl
@[simp] theorem State.undefineH_pending (s : State) : (s.undefineH).pending = s.pending := rfl
@[simp] theorem State.undefineH_resets (s : State) : (s.undefineH).resets = s.resets := rfl
@[simp] theorem State.undefineH_draws (s : State) : (s.undefineH).draws = s.draws + 1 := rfl
@[simp] theorem State.undefineH_masters (s : State) : (s.undefineH).masters = s.masters := rfl
@[simp] theorem State.undefineH_turns (s : State) : (s.undefineH).turns = s.turns := rfl

/-! ### State.startHash -/

@[simp] theorem State.startHash_cfg (alg : HashAlg) (s : State) : (s.startHash alg).cfg = s.cfg := rfl
@[simp] theorem State.startHash_ie (alg : HashAlg) (s : State) : (s.startHash alg).ie = s.ie := rfl
@[simp] theorem State.startHash_done (alg : HashAlg) (s : State) : (s.startHash alg).done = s.done := rfl
@[simp] theorem State.startHash_err (alg : HashAlg) (s : State) : (s.startHash alg).err = s.err := rfl
@[simp] theorem State.startHash_perr (alg : HashAlg) (s : State) : (s.startHash alg).perr = s.perr := rfl
@[simp] theorem State.startHash_hact (alg : HashAlg) (s : State) : (s.startHash alg).hact = true := rfl
@[simp] theorem State.startHash_dvalid (alg : HashAlg) (s : State) : (s.startHash alg).dvalid = s.dvalid := rfl
@[simp] theorem State.startHash_result (alg : HashAlg) (s : State) : (s.startHash alg).result = s.result := rfl
@[simp] theorem State.startHash_errcode (alg : HashAlg) (s : State) : (s.startHash alg).errcode = s.errcode := rfl
@[simp] theorem State.startHash_halg (alg : HashAlg) (s : State) : (s.startHash alg).halg = alg := rfl
@[simp] theorem State.startHash_tag (alg : HashAlg) (s : State) : (s.startHash alg).tag = s.tag := rfl
@[simp] theorem State.startHash_len (alg : HashAlg) (s : State) : (s.startHash alg).len = s.len := rfl
@[simp] theorem State.startHash_offlo (alg : HashAlg) (s : State) : (s.startHash alg).offlo = s.offlo := rfl
@[simp] theorem State.startHash_offhi (alg : HashAlg) (s : State) : (s.startHash alg).offhi = s.offhi := rfl
@[simp] theorem State.startHash_mem (alg : HashAlg) (s : State) : (s.startHash alg).mem = s.mem := rfl
@[simp] theorem State.startHash_h (alg : HashAlg) (s : State) : (s.startHash alg).h = alg.initial := rfl
@[simp] theorem State.startHash_hbuf (alg : HashAlg) (s : State) : (s.startHash alg).hbuf = [] := rfl
@[simp] theorem State.startHash_hlen (alg : HashAlg) (s : State) : (s.startHash alg).hlen = 0 := rfl
@[simp] theorem State.startHash_pending (alg : HashAlg) (s : State) : (s.startHash alg).pending = s.pending := rfl
@[simp] theorem State.startHash_resets (alg : HashAlg) (s : State) : (s.startHash alg).resets = s.resets := rfl
@[simp] theorem State.startHash_draws (alg : HashAlg) (s : State) : (s.startHash alg).draws = s.draws := rfl
@[simp] theorem State.startHash_masters (alg : HashAlg) (s : State) : (s.startHash alg).masters = s.masters := rfl
@[simp] theorem State.startHash_turns (alg : HashAlg) (s : State) : (s.startHash alg).turns = s.turns := rfl

/-! ### State.writeStatus -/

@[simp] theorem State.writeStatus_cfg (v : Word) (s : State) : (s.writeStatus v).cfg = s.cfg := rfl
@[simp] theorem State.writeStatus_ie (v : Word) (s : State) : (s.writeStatus v).ie = s.ie := rfl
@[simp] theorem State.writeStatus_done (v : Word) (s : State) : (s.writeStatus v).done = (s.done && !v.getLsbD 1) := rfl
@[simp] theorem State.writeStatus_err (v : Word) (s : State) : (s.writeStatus v).err = (s.err && !v.getLsbD 2) := rfl
@[simp] theorem State.writeStatus_perr (v : Word) (s : State) : (s.writeStatus v).perr = (s.perr && !v.getLsbD 3) := rfl
@[simp] theorem State.writeStatus_hact (v : Word) (s : State) : (s.writeStatus v).hact = s.hact := rfl
@[simp] theorem State.writeStatus_dvalid (v : Word) (s : State) : (s.writeStatus v).dvalid = s.dvalid := rfl
@[simp] theorem State.writeStatus_result (v : Word) (s : State) : (s.writeStatus v).result = s.result := rfl
@[simp] theorem State.writeStatus_errcode (v : Word) (s : State) : (s.writeStatus v).errcode = s.errcode := rfl
@[simp] theorem State.writeStatus_halg (v : Word) (s : State) : (s.writeStatus v).halg = s.halg := rfl
@[simp] theorem State.writeStatus_tag (v : Word) (s : State) : (s.writeStatus v).tag = s.tag := rfl
@[simp] theorem State.writeStatus_len (v : Word) (s : State) : (s.writeStatus v).len = s.len := rfl
@[simp] theorem State.writeStatus_offlo (v : Word) (s : State) : (s.writeStatus v).offlo = s.offlo := rfl
@[simp] theorem State.writeStatus_offhi (v : Word) (s : State) : (s.writeStatus v).offhi = s.offhi := rfl
@[simp] theorem State.writeStatus_mem (v : Word) (s : State) : (s.writeStatus v).mem = s.mem := rfl
@[simp] theorem State.writeStatus_h (v : Word) (s : State) : (s.writeStatus v).h = s.h := rfl
@[simp] theorem State.writeStatus_hbuf (v : Word) (s : State) : (s.writeStatus v).hbuf = s.hbuf := rfl
@[simp] theorem State.writeStatus_hlen (v : Word) (s : State) : (s.writeStatus v).hlen = s.hlen := rfl
@[simp] theorem State.writeStatus_pending (v : Word) (s : State) : (s.writeStatus v).pending = s.pending := rfl
@[simp] theorem State.writeStatus_resets (v : Word) (s : State) : (s.writeStatus v).resets = s.resets := rfl
@[simp] theorem State.writeStatus_draws (v : Word) (s : State) : (s.writeStatus v).draws = s.draws := rfl
@[simp] theorem State.writeStatus_masters (v : Word) (s : State) : (s.writeStatus v).masters = s.masters := rfl
@[simp] theorem State.writeStatus_turns (v : Word) (s : State) : (s.writeStatus v).turns = s.turns := rfl

/-! ### State.writeCtrl -/

@[simp] theorem State.writeCtrl_cfg (v : Word) (s : State) : (s.writeCtrl v).cfg = s.cfg := rfl
@[simp] theorem State.writeCtrl_ie (v : Word) (s : State) : (s.writeCtrl v).ie = v.getLsbD 0 := rfl
@[simp] theorem State.writeCtrl_done (v : Word) (s : State) : (s.writeCtrl v).done = s.done := rfl
@[simp] theorem State.writeCtrl_err (v : Word) (s : State) : (s.writeCtrl v).err = s.err := rfl
@[simp] theorem State.writeCtrl_perr (v : Word) (s : State) : (s.writeCtrl v).perr = s.perr := rfl
@[simp] theorem State.writeCtrl_hact (v : Word) (s : State) : (s.writeCtrl v).hact = s.hact := rfl
@[simp] theorem State.writeCtrl_dvalid (v : Word) (s : State) : (s.writeCtrl v).dvalid = s.dvalid := rfl
@[simp] theorem State.writeCtrl_result (v : Word) (s : State) : (s.writeCtrl v).result = s.result := rfl
@[simp] theorem State.writeCtrl_errcode (v : Word) (s : State) : (s.writeCtrl v).errcode = s.errcode := rfl
@[simp] theorem State.writeCtrl_halg (v : Word) (s : State) : (s.writeCtrl v).halg = s.halg := rfl
@[simp] theorem State.writeCtrl_tag (v : Word) (s : State) : (s.writeCtrl v).tag = s.tag := rfl
@[simp] theorem State.writeCtrl_len (v : Word) (s : State) : (s.writeCtrl v).len = s.len := rfl
@[simp] theorem State.writeCtrl_offlo (v : Word) (s : State) : (s.writeCtrl v).offlo = s.offlo := rfl
@[simp] theorem State.writeCtrl_offhi (v : Word) (s : State) : (s.writeCtrl v).offhi = s.offhi := rfl
@[simp] theorem State.writeCtrl_mem (v : Word) (s : State) : (s.writeCtrl v).mem = s.mem := rfl
@[simp] theorem State.writeCtrl_h (v : Word) (s : State) : (s.writeCtrl v).h = s.h := rfl
@[simp] theorem State.writeCtrl_hbuf (v : Word) (s : State) : (s.writeCtrl v).hbuf = s.hbuf := rfl
@[simp] theorem State.writeCtrl_hlen (v : Word) (s : State) : (s.writeCtrl v).hlen = s.hlen := rfl
@[simp] theorem State.writeCtrl_pending (v : Word) (s : State) : (s.writeCtrl v).pending = s.pending := rfl
@[simp] theorem State.writeCtrl_resets (v : Word) (s : State) : (s.writeCtrl v).resets = s.resets := rfl
@[simp] theorem State.writeCtrl_draws (v : Word) (s : State) : (s.writeCtrl v).draws = s.draws := rfl
@[simp] theorem State.writeCtrl_masters (v : Word) (s : State) : (s.writeCtrl v).masters = s.masters := rfl
@[simp] theorem State.writeCtrl_turns (v : Word) (s : State) : (s.writeCtrl v).turns = s.turns := rfl

/-! ### State.setProg -/

@[simp] theorem State.setProg_cfg (m : Nat) (p : List HostStep) (s : State) : (s.setProg m p).cfg = s.cfg := rfl
@[simp] theorem State.setProg_ie (m : Nat) (p : List HostStep) (s : State) : (s.setProg m p).ie = s.ie := rfl
@[simp] theorem State.setProg_done (m : Nat) (p : List HostStep) (s : State) : (s.setProg m p).done = s.done := rfl
@[simp] theorem State.setProg_err (m : Nat) (p : List HostStep) (s : State) : (s.setProg m p).err = s.err := rfl
@[simp] theorem State.setProg_perr (m : Nat) (p : List HostStep) (s : State) : (s.setProg m p).perr = s.perr := rfl
@[simp] theorem State.setProg_hact (m : Nat) (p : List HostStep) (s : State) : (s.setProg m p).hact = s.hact := rfl
@[simp] theorem State.setProg_dvalid (m : Nat) (p : List HostStep) (s : State) : (s.setProg m p).dvalid = s.dvalid := rfl
@[simp] theorem State.setProg_result (m : Nat) (p : List HostStep) (s : State) : (s.setProg m p).result = s.result := rfl
@[simp] theorem State.setProg_errcode (m : Nat) (p : List HostStep) (s : State) : (s.setProg m p).errcode = s.errcode := rfl
@[simp] theorem State.setProg_halg (m : Nat) (p : List HostStep) (s : State) : (s.setProg m p).halg = s.halg := rfl
@[simp] theorem State.setProg_tag (m : Nat) (p : List HostStep) (s : State) : (s.setProg m p).tag = s.tag := rfl
@[simp] theorem State.setProg_len (m : Nat) (p : List HostStep) (s : State) : (s.setProg m p).len = s.len := rfl
@[simp] theorem State.setProg_offlo (m : Nat) (p : List HostStep) (s : State) : (s.setProg m p).offlo = s.offlo := rfl
@[simp] theorem State.setProg_offhi (m : Nat) (p : List HostStep) (s : State) : (s.setProg m p).offhi = s.offhi := rfl
@[simp] theorem State.setProg_mem (m : Nat) (p : List HostStep) (s : State) : (s.setProg m p).mem = s.mem := rfl
@[simp] theorem State.setProg_h (m : Nat) (p : List HostStep) (s : State) : (s.setProg m p).h = s.h := rfl
@[simp] theorem State.setProg_hbuf (m : Nat) (p : List HostStep) (s : State) : (s.setProg m p).hbuf = s.hbuf := rfl
@[simp] theorem State.setProg_hlen (m : Nat) (p : List HostStep) (s : State) : (s.setProg m p).hlen = s.hlen := rfl
@[simp] theorem State.setProg_pending (m : Nat) (p : List HostStep) (s : State) : (s.setProg m p).pending = s.pending := rfl
@[simp] theorem State.setProg_resets (m : Nat) (p : List HostStep) (s : State) : (s.setProg m p).resets = s.resets := rfl
@[simp] theorem State.setProg_draws (m : Nat) (p : List HostStep) (s : State) : (s.setProg m p).draws = s.draws := rfl
@[simp] theorem State.setProg_masters (m : Nat) (p : List HostStep) (s : State) : (s.setProg m p).masters = s.masters.modify m (fun x => { x with prog := p }) := rfl
@[simp] theorem State.setProg_turns (m : Nat) (p : List HostStep) (s : State) : (s.setProg m p).turns = s.turns := rfl

/-! ### State.deliver -/

@[simp] theorem State.deliver_cfg (m : Nat) (v : Word) (s : State) : (s.deliver m v).cfg = s.cfg := rfl
@[simp] theorem State.deliver_ie (m : Nat) (v : Word) (s : State) : (s.deliver m v).ie = s.ie := rfl
@[simp] theorem State.deliver_done (m : Nat) (v : Word) (s : State) : (s.deliver m v).done = s.done := rfl
@[simp] theorem State.deliver_err (m : Nat) (v : Word) (s : State) : (s.deliver m v).err = s.err := rfl
@[simp] theorem State.deliver_perr (m : Nat) (v : Word) (s : State) : (s.deliver m v).perr = s.perr := rfl
@[simp] theorem State.deliver_hact (m : Nat) (v : Word) (s : State) : (s.deliver m v).hact = s.hact := rfl
@[simp] theorem State.deliver_dvalid (m : Nat) (v : Word) (s : State) : (s.deliver m v).dvalid = s.dvalid := rfl
@[simp] theorem State.deliver_result (m : Nat) (v : Word) (s : State) : (s.deliver m v).result = s.result := rfl
@[simp] theorem State.deliver_errcode (m : Nat) (v : Word) (s : State) : (s.deliver m v).errcode = s.errcode := rfl
@[simp] theorem State.deliver_halg (m : Nat) (v : Word) (s : State) : (s.deliver m v).halg = s.halg := rfl
@[simp] theorem State.deliver_tag (m : Nat) (v : Word) (s : State) : (s.deliver m v).tag = s.tag := rfl
@[simp] theorem State.deliver_len (m : Nat) (v : Word) (s : State) : (s.deliver m v).len = s.len := rfl
@[simp] theorem State.deliver_offlo (m : Nat) (v : Word) (s : State) : (s.deliver m v).offlo = s.offlo := rfl
@[simp] theorem State.deliver_offhi (m : Nat) (v : Word) (s : State) : (s.deliver m v).offhi = s.offhi := rfl
@[simp] theorem State.deliver_mem (m : Nat) (v : Word) (s : State) : (s.deliver m v).mem = s.mem := rfl
@[simp] theorem State.deliver_h (m : Nat) (v : Word) (s : State) : (s.deliver m v).h = s.h := rfl
@[simp] theorem State.deliver_hbuf (m : Nat) (v : Word) (s : State) : (s.deliver m v).hbuf = s.hbuf := rfl
@[simp] theorem State.deliver_hlen (m : Nat) (v : Word) (s : State) : (s.deliver m v).hlen = s.hlen := rfl
@[simp] theorem State.deliver_pending (m : Nat) (v : Word) (s : State) : (s.deliver m v).pending = s.pending := rfl
@[simp] theorem State.deliver_resets (m : Nat) (v : Word) (s : State) : (s.deliver m v).resets = s.resets := rfl
@[simp] theorem State.deliver_draws (m : Nat) (v : Word) (s : State) : (s.deliver m v).draws = s.draws := rfl
@[simp] theorem State.deliver_masters (m : Nat) (v : Word) (s : State) : (s.deliver m v).masters = s.masters.modify m (fun x => { x with reads := x.reads ++ [v] }) := rfl
@[simp] theorem State.deliver_turns (m : Nat) (v : Word) (s : State) : (s.deliver m v).turns = s.turns := rfl

/-! ### Compound updates -/

theorem State.completeScrubbed_eq (c : ErrCode) (s : State) : s.completeScrubbed c = s.scrub.complete c := rfl

@[simp] theorem State.drawRead_fst (s : State) : s.drawRead.1 = Config.busyRead s.draws := rfl
@[simp] theorem State.drawRead_snd (s : State) : s.drawRead.2 = { s with draws := s.draws + 1 } := rfl
@[simp] theorem State.busy_eq (s : State) : s.busy = s.pending.isSome := rfl

/-! ### State.resetBlock -/

@[simp] theorem State.resetBlock_cfg (s : State) : s.resetBlock.cfg = s.cfg := rfl
@[simp] theorem State.resetBlock_ie (s : State) : s.resetBlock.ie = false := rfl
@[simp] theorem State.resetBlock_done (s : State) : s.resetBlock.done = false := rfl
@[simp] theorem State.resetBlock_err (s : State) : s.resetBlock.err = false := rfl
@[simp] theorem State.resetBlock_perr (s : State) : s.resetBlock.perr = false := rfl
@[simp] theorem State.resetBlock_hact (s : State) : s.resetBlock.hact = false := rfl
@[simp] theorem State.resetBlock_dvalid (s : State) : s.resetBlock.dvalid = false := rfl
@[simp] theorem State.resetBlock_result (s : State) : s.resetBlock.result = false := rfl
@[simp] theorem State.resetBlock_errcode (s : State) : s.resetBlock.errcode = .none := rfl
@[simp] theorem State.resetBlock_halg (s : State) : s.resetBlock.halg = .none := rfl
@[simp] theorem State.resetBlock_tag (s : State) : s.resetBlock.tag = 0 := rfl
@[simp] theorem State.resetBlock_len (s : State) : s.resetBlock.len = 0 := rfl
@[simp] theorem State.resetBlock_offlo (s : State) : s.resetBlock.offlo = 0 := rfl
@[simp] theorem State.resetBlock_offhi (s : State) : s.resetBlock.offhi = 0 := rfl
@[simp] theorem State.resetBlock_mem (s : State) : s.resetBlock.mem = [] := rfl
@[simp] theorem State.resetBlock_h (s : State) : s.resetBlock.h = [] := rfl
@[simp] theorem State.resetBlock_hbuf (s : State) : s.resetBlock.hbuf = [] := rfl
@[simp] theorem State.resetBlock_hlen (s : State) : s.resetBlock.hlen = 0 := rfl
@[simp] theorem State.resetBlock_pending (s : State) : s.resetBlock.pending = none := rfl
@[simp] theorem State.resetBlock_resets (s : State) : s.resetBlock.resets = s.resets + 1 := rfl
@[simp] theorem State.resetBlock_draws (s : State) : s.resetBlock.draws = s.draws := rfl
@[simp] theorem State.resetBlock_masters (s : State) : s.resetBlock.masters = s.masters := rfl
@[simp] theorem State.resetBlock_turns (s : State) : s.resetBlock.turns = s.turns := rfl

end Sys2Proof.Machine
end

