-- ==== Sys2Proof/Laws/Ops.lean ====
section
/-! SUPPORT. What each shared operation can do, said once: cite these instead of unfolding the operations. -/

namespace Sys2Proof.Machine

/-! ### Byte strings -/

@[simp] theorem length_gen (n : Nat) (f : Nat → Byte) : (gen n f).length = n := by simp [gen]

@[simp] theorem length_be (n x : Nat) : (be n x).length = n := by
  induction n with
  | zero => rfl
  | succ n ih => simp [be, ih]

@[simp] theorem length_i2osp (x k : Nat) : (i2osp x k).length = k := length_be k x

theorem foldl_os2ip (s : List Byte) (x : Nat) :
    s.foldl (fun acc b => acc * 256 + b.toNat) x = x * 256 ^ s.length + os2ip s := by
  unfold os2ip
  induction s generalizing x with
  | nil => simp
  | cons b s ih =>
    rw [List.foldl_cons, List.foldl_cons, ih, ih (0 * 256 + b.toNat), List.length_cons, pow_succ]
    ring

/-- OS2IP of a string is its first byte in the highest place plus OS2IP of the rest. -/
theorem os2ip_cons (b : Byte) (s : List Byte) : os2ip (b :: s) = b.toNat * 256 ^ s.length + os2ip s := by
  rw [os2ip, List.foldl_cons, foldl_os2ip, Nat.zero_mul, Nat.zero_add]

/-- OS2IP(BE(n, x)) = x mod 256^n. -/
theorem os2ip_be (n x : Nat) : os2ip (be n x) = x % 256 ^ n := by
  induction n with
  | zero => simp [be, os2ip, Nat.mod_one]
  | succ n ih =>
    rw [be, os2ip_cons, length_be, ih, BitVec.toNat_ofNat, Nat.pow_succ 256 n, Nat.mod_mul, Nat.add_comm, Nat.mul_comm]

@[simp] theorem length_zeros (n : Nat) : (zeros n).length = n := by simp [zeros]

@[simp] theorem length_xorBytes (a b : List Byte) : (xorBytes a b).length = min a.length b.length := by
  simp [xorBytes]

@[simp] theorem length_le32Bytes (v : Word) : (le32Bytes v).length = 4 := rfl

@[simp] theorem length_window (s : State) (w : Window) (n : Nat) : (s.window w n).length = n := by
  simp [State.window]

/-! ### Scrub and completion -/

/-- A read after a scrub: zero in N and D, everywhere else what it was. -/
theorem State.readByte_scrub (s : State) (x : Nat) :
    s.scrub.readByte x = if 0x400 ≤ x ∧ x < 0x800 then 0 else s.readByte x := by
  have h : s.scrub.readByte x = ((s.setWindow .n (zeros 512)).setWindow .d (zeros 512)).readByte x :=
    State.readByte_congr rfl rfl x
  have hz : ∀ i, (zeros 512).getD i 0 = 0 := by
    intro i
    rw [zeros, List.getD_eq_getElem?_getD, List.getElem?_replicate]
    split <;> rfl
  rw [h, State.readByte_setWindow, State.readByte_setWindow, hz, hz]
  simp only [length_zeros, Window.base]
  by_cases h1 : 0x600 ≤ x ∧ x < 0x600 + 512
  · rw [if_pos h1, if_pos (by omega)]
  · rw [if_neg h1]
    by_cases h2 : 0x400 ≤ x ∧ x < 0x400 + 512
    · rw [if_pos h2, if_pos (by omega)]
    · rw [if_neg h2, if_neg (by omega)]

@[simp] theorem State.readByte_complete (s : State) (c : ErrCode) (x : Nat) :
    (s.complete c).readByte x = s.readByte x := rfl

theorem State.readByte_completeScrubbed (s : State) (c : ErrCode) (x : Nat) :
    (s.completeScrubbed c).readByte x = if 0x400 ≤ x ∧ x < 0x800 then 0 else s.readByte x :=
  State.readByte_scrub s x

/-! ### Checks -/

/-- When Check1 and Check2 pass. -/
theorem State.rsaChecks_ok_iff (s : State) (k : Nat) :
    s.rsaChecks = .ok k ↔
      (keySizeFor s.sigClass).bytes = some k ∧ s.readByte 0x400 ≠ 0 ∧ s.modulus k % 2 ≠ 0 := by
  unfold State.rsaChecks
  cases h : (keySizeFor s.sigClass).bytes with
  | none => simp
  | some k' =>
    simp only [Option.some.injEq]
    by_cases hc : s.readByte 0x400 = 0 ∨ s.modulus k' % 2 = 0
    · rw [if_pos hc]
      constructor
      · intro h; simp at h
      · rintro ⟨rfl, h1, h2⟩
        rcases hc with hc | hc
        · exact absurd hc h1
        · exact absurd hc h2
    · rw [if_neg hc]
      rw [not_or] at hc
      constructor
      · intro h; cases h; exact ⟨rfl, hc.1, hc.2⟩
      · rintro ⟨rfl, -, -⟩; rfl

/-- Why Check1 or Check2 fails. -/
theorem State.rsaChecks_error {s : State} {e : ErrCode} (h : s.rsaChecks = .error e) :
    (e = .unsupportedSigtype ∧ keySizeFor s.sigClass = .invalid) ∨
    (e = .keyInit ∧ ∃ k, (keySizeFor s.sigClass).bytes = some k ∧ (s.readByte 0x400 = 0 ∨ s.modulus k % 2 = 0)) := by
  unfold State.rsaChecks at h
  cases hk : (keySizeFor s.sigClass).bytes with
  | none =>
    rw [hk] at h
    left
    refine ⟨by simpa using h.symm, ?_⟩
    cases hs : keySizeFor s.sigClass <;> simp [hs, KeySize.bytes] at hk ⊢
  | some k =>
    rw [hk] at h
    simp only at h
    split at h
    · rename_i hc
      right; exact ⟨by simpa using h.symm, k, rfl, hc⟩
    · simp at h

/-- An RSA class has a hash id, so Check3 adds no failure of its own (44_pkcs1 R172). -/
theorem pkcsHashIdFor_of_size {c : SigClass} {k : Nat} (h : (keySizeFor c).bytes = some k) :
    pkcsHashIdFor c ≠ .none := by
  cases c <;> simp [keySizeFor, KeySize.bytes, pkcsHashIdFor] at h ⊢

/-- What the PKCS commands' checks resolve when they pass. -/
theorem State.pkcsChecks_ok {s : State} {o : PkcsOperands} (h : s.pkcsChecks = .ok o) :
    s.rsaChecks = .ok o.k ∧ o.hid = pkcsHashIdFor s.sigClass ∧
      o.digest = s.window .digest (digestLengthFor s.sigClass) := by
  unfold State.pkcsChecks at h
  cases hr : s.rsaChecks with
  | error e => simp [hr] at h
  | ok k =>
    simp only [hr] at h
    cases hh : pkcsHashIdFor s.sigClass <;> simp only [hh] at h
    · simp at h
    · cases h; exact ⟨rfl, rfl, rfl⟩
    · cases h; exact ⟨rfl, rfl, rfl⟩

/-! ### The hash context -/

/-- What one fed byte does: it is buffered, or it fills the block and the block is compressed. -/
theorem State.feed_cases (b : Byte) (s : State) :
    (s.hbuf.length ≠ 63 ∧ s.feed b = { s with hbuf := s.hbuf ++ [b] }) ∨
    (s.hbuf.length = 63 ∧ s.feed b = { s with h := s.halg.compress s.h (s.hbuf ++ [b]), hbuf := [] }) := by
  unfold State.feed
  by_cases h : s.hbuf.length + 1 = 64
  · right; rw [if_pos h]; exact ⟨by omega, rfl⟩
  · left; rw [if_neg h]; exact ⟨by omega, rfl⟩

/-- Feeding writes the hash context's H and HBUF and nothing else. -/
theorem State.feed_frame (b : Byte) (s : State) : s.feed b = { s with h := (s.feed b).h, hbuf := (s.feed b).hbuf } := by
  rcases s.feed_cases b with ⟨-, h⟩ | ⟨-, h⟩ <;> rw [h]

theorem State.feedAll_frame (bs : List Byte) (s : State) :
    s.feedAll bs = { s with h := (s.feedAll bs).h, hbuf := (s.feedAll bs).hbuf } := by
  induction bs generalizing s with
  | nil => rfl
  | cons b bs ih =>
    have e : s.feedAll (b :: bs) = (s.feed b).feedAll bs := rfl
    rw [e, ih, State.feed_frame]

/-- Absorbing writes H, HBUF and HLEN and nothing else. -/
theorem State.absorb_frame (b : Byte) (s : State) :
    s.absorb b = { s with h := (s.feed b).h, hbuf := (s.feed b).hbuf, hlen := s.hlen + 1 } := by
  unfold State.absorb; rw [State.feed_frame]

theorem State.absorbAll_frame (bs : List Byte) (s : State) :
    s.absorbAll bs =
      { s with h := (s.absorbAll bs).h, hbuf := (s.absorbAll bs).hbuf, hlen := (s.absorbAll bs).hlen } := by
  induction bs generalizing s with
  | nil => rfl
  | cons b bs ih =>
    have e : s.absorbAll (b :: bs) = (s.absorb b).absorbAll bs := rfl
    rw [e, ih, State.absorb_frame]

/-- HASH_INIT with a resolved algorithm: an error without one, else a new context. -/
theorem hashInit_cases (alg : HashAlg) (s : State) :
    (alg = .none ∧ hashInit alg s = .next (s.complete .unsupportedSigtype)) ∨
    (alg ≠ .none ∧ hashInit alg s = .next ((s.startHash alg).complete .none)) := by
  cases alg
  · exact .inl ⟨rfl, rfl⟩
  · exact .inr ⟨by decide, rfl⟩
  · exact .inr ⟨by decide, rfl⟩

/-! ### Instructions and the bus -/

/-- Every meaning answers a next state: no instruction of this block stops the machine (60_exceptions R200, R206). -/
theorem exec_next (i : Instr) (s : State) : ∃ t, exec i s = .next t := by
  have hi : ∀ alg, ∃ t, hashInit alg s = .next t := fun alg => by
    rcases hashInit_cases alg s with ⟨-, h⟩ | ⟨-, h⟩ <;> exact ⟨_, h⟩
  cases i <;> simp only [exec]
  case nop => exact ⟨_, rfl⟩
  case hashInitTag => exact hi _
  case hashInitSha1 => exact hi _
  case hashInitSha256 => exact hi _
  case hashFinal => unfold execHashFinal; split <;> exact ⟨_, rfl⟩
  case dgstCmp => exact ⟨_, rfl⟩
  case aesCbcEnc => unfold execAesCbcEnc; split <;> exact ⟨_, rfl⟩
  case aesCbcDec => unfold execAesCbcDec; split <;> exact ⟨_, rfl⟩
  case aesCtr => unfold execAesCtr; split <;> exact ⟨_, rfl⟩
  case ctrDerive => exact ⟨_, rfl⟩
  case rsaPub => unfold execRsaPub; split <;> exact ⟨_, rfl⟩
  case rsaPriv =>
    unfold execRsaPriv; split
    · exact ⟨_, rfl⟩
    · split <;> exact ⟨_, rfl⟩
  case keyClear => exact ⟨_, rfl⟩
  case pkcsVerify => unfold execPkcsVerify; split <;> exact ⟨_, rfl⟩
  case pkcsSign =>
    unfold execPkcsSign; split
    · exact ⟨_, rfl⟩
    · split <;> exact ⟨_, rfl⟩
  case hdata32 v => unfold execHdata32; split <;> exact ⟨_, rfl⟩
  case hdata8 v => unfold execHdata8; split <;> exact ⟨_, rfl⟩

/-- A legal write answers a next state. -/
theorem busWrite_next (off : Nat) (v : Word) (s : State) : ∃ t, busWrite off v s = .next t := by
  have hp : ∃ t, runPort off v s = .next t := by
    unfold runPort; split
    · exact exec_next _ s
    · exact ⟨_, rfl⟩
  unfold busWrite
  split <;> first | exact hp | exact ⟨_, rfl⟩

/-- A read changes at most the count of free values taken, and that only while a command is in flight. -/
theorem State.engineRead_cases (v : Word) (s : State) :
    (s.busy = false ∧ s.engineRead v = (v, s)) ∨ (s.busy = true ∧ s.engineRead v = s.drawRead) := by
  unfold State.engineRead
  cases h : s.busy
  · left; simp
  · right; simp

/-- A read does not look at the schedule or the masters, and leaves them. -/
theorem State.busRead_schedule (off : Nat) (s : State) (ts : List Turn) (ms : List Master) :
    State.busRead off { s with turns := ts, masters := ms } =
      ((s.busRead off).1, { (s.busRead off).2 with turns := ts, masters := ms }) := by
  have he : ∀ v, State.engineRead v { s with turns := ts, masters := ms } =
      ((s.engineRead v).1, { (s.engineRead v).2 with turns := ts, masters := ms }) := by
    intro v
    have hb : ({ s with turns := ts, masters := ms } : State).busy = s.busy := rfl
    unfold State.engineRead
    rw [hb]
    cases s.busy <;> rfl
  unfold State.busRead
  cases target s.cfg off with
  | window w j => cases w <;> first | rfl | exact he _
  | hlenlo => exact he _
  | hlenhi => exact he _
  | _ => rfl

/-- Which accesses the bus takes, and at which offset (20_memory R59). -/
theorem Access.offset_eq_some_iff (c : Config) (a : Access) (off : Nat) :
    a.offset c = some off ↔ a.shape = .word ∧ a.addr = c.base + off ∧ off < 0x2000 ∧ off % 4 = 0 := by
  unfold Access.offset
  split
  · rename_i h
    obtain ⟨h1, h2, h3, h4⟩ := h
    simp only [Option.some.injEq, h1, true_and]
    constructor
    · rintro rfl; omega
    · rintro ⟨h5, -, -⟩; omega
  · rename_i h
    simp only [reduceCtorEq, false_iff]
    rintro ⟨h1, h2, h3, h4⟩
    exact h ⟨h1, by omega, by omega, by rw [h2]; simpa using h4⟩

/-- One access of a master: a bus error, or a read, or a write. -/
theorem performAccess_cases (m : Nat) (a : Access) (s : State) :
    (a.offset s.cfg = none ∧ performAccess m a s = .fault (.busError a)) ∨
    (∃ off, a.offset s.cfg = some off ∧ a.op = .read ∧
      performAccess m a s = .next ((s.busRead off).2.deliver m (s.busRead off).1)) ∨
    (∃ off v, a.offset s.cfg = some off ∧ a.op = .write v ∧ performAccess m a s = busWrite off v s) := by
  unfold performAccess
  cases h : a.offset s.cfg with
  | none => exact .inl ⟨rfl, rfl⟩
  | some off =>
    cases ho : a.op with
    | read => exact .inr (.inl ⟨off, rfl, rfl, rfl⟩)
    | write v => exact .inr (.inr ⟨off, v, rfl, rfl, rfl⟩)

/-- What a DUMP yields is what its own reads returned, whatever was read before. -/
theorem dumpBytes_append (n : Nat) (xs rs : List Word) (h : rs.length = ceilDiv n 4) :
    dumpBytes n (xs ++ rs) = rs.flatMap le32Bytes := by
  rw [dumpBytes, List.length_append, h, Nat.add_sub_cancel, List.drop_left]

@[simp] theorem length_dump (base : Nat) (w : Window) (j n : Nat) : (dump base w j n).length = ceilDiv n 4 := by
  simp [dump]

/-- Which agent a step is a step of. -/
theorem step_cases (s : State) :
    (∃ t ts, s.turns = t :: ts ∧ step s = takeTurn t { s with turns := ts }) ∨
    (s.turns = [] ∧ ∃ t, s.nextTurn = some t ∧ step s = takeTurn t s) ∨
    (s.turns = [] ∧ s.nextTurn = none ∧ step s = .next s) := by
  unfold step
  cases h : s.turns with
  | cons t ts => exact .inl ⟨t, ts, rfl, rfl⟩
  | nil =>
    cases hn : s.nextTurn with
    | some t => exact .inr (.inl ⟨rfl, t, rfl, rfl⟩)
    | none => exact .inr (.inr ⟨rfl, rfl, rfl⟩)

end Sys2Proof.Machine
end

