-- ==== Sys2Proof/Laws/PerInstr.lean ====
section
/-! SUPPORT. Statements made per instruction: every instruction is carried by a legal bus write. -/

namespace Sys2Proof.Laws.CarriedByLegalWrite

/-- The bus write that carries an instruction is at a legal offset (20_memory R59). -/
def Statement (i : Instr) : Prop := (encode i).wellFormed = true

theorem nop : Statement .nop := rfl
theorem hashInitTag : Statement .hashInitTag := rfl
theorem hashInitSha1 : Statement .hashInitSha1 := rfl
theorem hashInitSha256 : Statement .hashInitSha256 := rfl
theorem hashFinal : Statement .hashFinal := rfl
theorem dgstCmp : Statement .dgstCmp := rfl
theorem aesCbcEnc : Statement .aesCbcEnc := rfl
theorem aesCbcDec : Statement .aesCbcDec := rfl
theorem aesCtr : Statement .aesCtr := rfl
theorem ctrDerive : Statement .ctrDerive := rfl
theorem rsaPub : Statement .rsaPub := rfl
theorem rsaPriv : Statement .rsaPriv := rfl
theorem keyClear : Statement .keyClear := rfl
theorem pkcsVerify : Statement .pkcsVerify := rfl
theorem pkcsSign : Statement .pkcsSign := rfl
theorem hdata32 (v : Word) : Statement (.hdata32 v) := by
  simp [Statement, BusWord.wellFormed, encode, encodeOffset, hdata32Offset]
theorem hdata8 (v : Word) : Statement (.hdata8 v) := by
  simp [Statement, BusWord.wellFormed, encode, encodeOffset, hdata8Offset]

end Sys2Proof.Laws.CarriedByLegalWrite
end

