-- ==== Sys2Proof/Tests/Slice0.lean ====
section
/-! SUPPORT. Tests of one step each, their expected values from spec/ (95_test_vectors and the rules' examples), and for
every statement with hypotheses a witness that meets them. -/

namespace Sys2Proof.Machine.Tests

set_option Elab.async false

open Sys2Proof Sys2Proof.Machine

/-- The next state of an outcome, if it is one. -/
def stateOf (o : Host.Outcome State Fault Refusal) : Option State :=
  match o with
  | .next s => some s
  | .fault _ => none
  | .refused _ => none

/-- What a function of the next state gives. -/
def after (o : Host.Outcome State Fault Refusal) {α : Type} (f : State → α) : Option α := (stateOf o).map f

/-! ### Well-formedness: for each check an ill-formed term that it refuses -/

theorem test_wf_instr : Instr.wellFormed (.hdata8 0x00000161) = true := by decide
theorem test_wf_write_unaligned : BusWord.wellFormed { off := 0x00E, data := 0 } = false := by decide
theorem test_wf_write_outside : BusWord.wellFormed { off := 0x2000, data := 0 } = false := by decide
theorem test_wf_config_default : Config.default.wellFormed = true := by decide
theorem test_wf_config_base : Config.baseOk { Config.default with base := 0x1000 } = false := by decide
theorem test_wf_config_dbuf_multiple : Config.dbufOk { Config.default with dbufBytes := 40 } = false := by decide
theorem test_wf_config_dbuf_small : Config.dbufOk { Config.default with dbufBytes := 0 } = false := by decide
theorem test_wf_config_dbuf_large : Config.dbufOk { Config.default with dbufBytes := 4112 } = false := by decide
theorem test_wf_config_map_tag_twice :
    Config.mapOk { Config.default with sigtypeMap := (0x00010000, .eccSha256) :: Config.defaultMap } = false := by decide
theorem test_wf_config_map_class_twice :
    Config.mapOk { Config.default with sigtypeMap := (7, .eccSha256) :: Config.defaultMap } = false := by decide
theorem test_wf_config_map_missing : Config.mapOk { Config.default with sigtypeMap := [] } = false := by decide
theorem test_wf_config_map_invalid :
    Config.mapOk { Config.default with sigtypeMap := (7, .invalid) :: Config.defaultMap } = false := by decide

/-! ### Decoding: every constructor's word, written out bit by bit from 30_encoding R80, R81 and R85 -/

/-- A command word from its fields RSV, SEL and OP, most significant first (30_encoding R80). -/
def cmd (rsv : BitVec 22) (sel : BitVec 2) (op : BitVec 8) : BusWord := { off := 0x00C, data := rsv ++ sel ++ op }

theorem test_decode_nop : decode (cmd 0 0b00 0b00000000) = .ok .nop := by rfl
theorem test_decode_hashInitTag : decode (cmd 0 0b00 0b00000001) = .ok .hashInitTag := by rfl
theorem test_decode_hashInitSha1 : decode (cmd 0 0b01 0b00000001) = .ok .hashInitSha1 := by rfl
theorem test_decode_hashInitSha256 : decode (cmd 0 0b10 0b00000001) = .ok .hashInitSha256 := by rfl
theorem test_decode_hashFinal : decode (cmd 0 0b00 0b00000010) = .ok .hashFinal := by rfl
theorem test_decode_dgstCmp : decode (cmd 0 0b00 0b00000011) = .ok .dgstCmp := by rfl
theorem test_decode_aesCbcEnc : decode (cmd 0 0b00 0b00010000) = .ok .aesCbcEnc := by rfl
theorem test_decode_aesCbcDec : decode (cmd 0 0b00 0b00010001) = .ok .aesCbcDec := by rfl
theorem test_decode_aesCtr : decode (cmd 0 0b00 0b00010010) = .ok .aesCtr := by rfl
theorem test_decode_ctrDerive : decode (cmd 0 0b00 0b00010011) = .ok .ctrDerive := by rfl
theorem test_decode_rsaPub : decode (cmd 0 0b00 0b00100000) = .ok .rsaPub := by rfl
theorem test_decode_rsaPriv : decode (cmd 0 0b00 0b00100001) = .ok .rsaPriv := by rfl
theorem test_decode_keyClear : decode (cmd 0 0b00 0b00100010) = .ok .keyClear := by rfl
theorem test_decode_pkcsVerify : decode (cmd 0 0b00 0b00110000) = .ok .pkcsVerify := by rfl
theorem test_decode_pkcsSign : decode (cmd 0 0b00 0b00110001) = .ok .pkcsSign := by rfl
theorem test_decode_hdata32 : decode { off := 0b0000000101000, data := 0x64636261 } = .ok (.hdata32 0x64636261) := by rfl
theorem test_decode_hdata8 : decode { off := 0b0000000101100, data := 0x00000161 } = .ok (.hdata8 0x00000161) := by rfl

/-! The illegal words of 95_test_vectors 3.7 and the other offsets, rejected by name. -/

theorem test_decode_undefined_op : decode (cmd 0 0 0x04) = .error .undefinedOp := by rfl
theorem test_decode_sel_three : decode (cmd 0 3 0x01) = .error .selThree := by rfl
theorem test_decode_sel_not_zero : decode (cmd 0 1 0x10) = .error .selNotZero := by rfl
theorem test_decode_reserved_bit : decode { off := 0x00C, data := 0x00000400 } = .error .reservedBits := by rfl
theorem test_decode_all_ones : decode { off := 0x00C, data := 0xFFFFFFFF } = .error .reservedBits := by rfl
theorem test_decode_no_instruction : decode { off := 0x010, data := 0 } = .error .notAnInstruction := by rfl

theorem test_table_word_command : decodeTableWord 32 0x00000201 = some .hashInitSha256 := by decide
theorem test_table_word_port : decodeTableWord 16 0x002C = some (.hdata8 0) := by decide
theorem test_table_word_port_operand : decodeTableWord 48 0x646362610028 = some (.hdata32 0x64636261) := by decide
theorem test_table_word_illegal : decodeTableWord 32 0x00000028 = none := by decide

/-! ### Instructions -/

/-- 95_test_vectors V-NOP: from reset, RUN NOP gives STATUS 0x00000002. -/
theorem test_nop_status : after (step (State.reset.withFetchWord 32 0)) State.statusWord = some 0x00000002 := by
  decide +kernel

/-- A state with a tag, as after WR 0x010. -/
def tagged (t : Word) : State := { State.reset with tag := t }

/-- 41_digest R113's example: STATUS 0x00020012. -/
theorem test_hashInitTag_status : after (exec .hashInitTag (tagged 0x00010004)) State.statusWord = some 0x00020012 := by
  decide +kernel

/-- V-SHA-STATUS: an unknown tag gives STATUS 0x00000106. -/
theorem test_hashInitTag_unknown : after (exec .hashInitTag (tagged 0x00010006)) State.statusWord = some 0x00000106 := by
  decide +kernel

/-- V-SHA-STATUS: an ECC tag hashes. -/
theorem test_hashInitTag_ecc : after (exec .hashInitTag (tagged 0x00010002)) State.statusWord = some 0x00010012 := by
  decide +kernel

theorem test_hashInitSha1_h : after (exec .hashInitSha1 State.reset) State.h =
    some [0x67452301, 0xEFCDAB89, 0x98BADCFE, 0x10325476, 0xC3D2E1F0] := by decide +kernel

theorem test_hashInitSha256_status : after (exec .hashInitSha256 State.reset) State.statusWord = some 0x00020012 := by
  decide +kernel

/-- A hash context with some bytes buffered, as HASH_INIT and port writes leave it. -/
def hashing (alg : HashAlg) (m : List Byte) : State :=
  { State.reset.startHash alg with hbuf := m, hlen := BitVec.ofNat 64 m.length }

/-- 41_digest R114: the message bytes "abcd" are written as 0x64636261, and HLENLO is 4. -/
theorem test_hdata32_order : after (exec (.hdata32 0x64636261) (hashing .sha256 [])) (fun t => (t.hbuf, t.hlen)) =
    some ([0x61, 0x62, 0x63, 0x64], 4) := by decide +kernel

/-- V-SHA-STATUS: with HACT = 0 the write is dropped and STATUS is 0x00000008. -/
theorem test_hdata32_dropped : after (step (State.reset.withFetchWord 48 0x646362610028)) State.statusWord =
    some 0x00000008 := by decide +kernel

/-- 41_digest R115: writing 0x00000161 appends the single byte 0x61. -/
theorem test_hdata8_low_byte : after (exec (.hdata8 0x00000161) (hashing .sha1 [])) (fun t => (t.hbuf, t.hlen)) =
    some ([0x61], 1) := by decide +kernel

/-- A full block is compressed and HBUF is empty again. -/
theorem test_hdata8_fills_block : after (exec (.hdata8 0x61) (hashing .sha1 (List.replicate 63 0x61)))
    (fun t => (t.hbuf.length, t.hlen)) = some (0, 64) := by decide +kernel

/-- V-SHA: SHA-256 of "abc", and HLEN kept (41_digest R117). -/
theorem test_hashFinal_sha256 : after (exec .hashFinal (hashing .sha256 [0x61, 0x62, 0x63]))
    (fun t => (t.window .digest 32, t.hlen)) =
    some (be 32 0xba7816bf8f01cfea414140de5dae2223b00361a396177a9cb410ff61f20015ad, 3) := by decide +kernel

/-- V-SHA: SHA-1 of "abc" followed by 12 zero bytes. -/
theorem test_hashFinal_sha1 : after (exec .hashFinal (hashing .sha1 [0x61, 0x62, 0x63])) (fun t => t.window .digest 32) =
    some (be 20 0xa9993e364706816aba3e25717850c26c9cd0d89d ++ zeros 12) := by decide +kernel

/-- V-SHA: 56 bytes "a" need a second block of padding. -/
theorem test_digest_two_blocks : digestMessage .sha1 (List.replicate 56 0x61) =
    be 20 0xc2db330f6083854c99d4b5bfb6e8f29f201be699 := by decide +kernel

/-- DIGEST and REF as V-DGST_CMP's last row has them: SHA1("abc") with byte 20 different. -/
def comparing (b : Byte) : State :=
  (State.reset.setWindow .digest (be 20 0xa9993e364706816aba3e25717850c26c9cd0d89d)).setWindow .ref
    (be 20 0xa9993e364706816aba3e25717850c26c9cd0d89d ++ [b])

theorem test_dgstCmp_equal : after (exec .dgstCmp (comparing 0)) State.statusWord = some 0x00000042 := by decide +kernel
theorem test_dgstCmp_differs : after (exec .dgstCmp (comparing 1)) State.statusWord = some 0x00000002 := by decide +kernel

/-- 42_cipher R131's FIPS 197 example, both ways. -/
theorem test_aes_fips : aesE (be 16 0x000102030405060708090a0b0c0d0e0f) (be 16 0x00112233445566778899aabbccddeeff) =
    be 16 0x69c4e0d86a7b0430d8cdb78070b4c55a := by decide +kernel
theorem test_aes_fips_back : aesD (be 16 0x000102030405060708090a0b0c0d0e0f) (be 16 0x69c4e0d86a7b0430d8cdb78070b4c55a) =
    be 16 0x00112233445566778899aabbccddeeff := by decide +kernel

/-- KEY, IV, LEN and DBUF loaded with one block, or less. -/
def ciphering (iv : Nat) (len : Word) (data : List Byte) : State :=
  { ((State.reset.setWindow .key (be 16 0x2b7e151628aed2a6abf7158809cf4f3c)).setWindow .iv (be 16 iv)).setWindow .dbuf data
    with len := len }

/-- 42_cipher R132's example. -/
theorem test_aesCbcEnc : after (exec .aesCbcEnc (ciphering 0x000102030405060708090a0b0c0d0e0f 16
      (be 16 0x6bc1bee22e409f96e93d7e117393172a))) (fun t => (t.dataBytes, t.ivBytes)) =
    some (be 16 0x7649abac8119b246cee98e9b12e9197d, be 16 0x7649abac8119b246cee98e9b12e9197d) := by decide +kernel

/-- V-CBC-ERR: LEN = 15 is BAD_LENGTH. -/
theorem test_aesCbcEnc_length : after (exec .aesCbcEnc { State.reset with len := 15 }) State.statusWord =
    some 0x00000406 := by decide +kernel

/-- 42_cipher R133's example. -/
theorem test_aesCbcDec : after (exec .aesCbcDec (ciphering 0x000102030405060708090a0b0c0d0e0f 16
      (be 16 0x7649abac8119b246cee98e9b12e9197d))) (fun t => (t.dataBytes, t.ivBytes)) =
    some (be 16 0x6bc1bee22e409f96e93d7e117393172a, be 16 0x7649abac8119b246cee98e9b12e9197d) := by decide +kernel

/-- V-CBC-ERR: LEN = 0x80000000 is BAD_LENGTH. -/
theorem test_aesCbcDec_length : after (exec .aesCbcDec { State.reset with len := 0x80000000 }) State.statusWord =
    some 0x00000406 := by decide +kernel

/-- V-CTR-2: a partial second block. -/
theorem test_aesCtr : after (exec .aesCtr (ciphering 0xf0f1f2f3f4f5f6f7f8f9fafbfcfdfeff 20
      (be 20 0x6bc1bee22e409f96e93d7e117393172aae2d8a57))) (fun t => (t.dataBytes, t.ivBytes)) =
    some (be 20 0x874d6191b620e3261bef6864990db6ce9806f66b, be 16 0xf0f1f2f3f4f5f6f7f8f9fafbfcfdfeff) := by
  decide +kernel

/-- V-CTR-4: the carry enters the nonce under INC128, and does not under INC64. -/
theorem test_incCounter : incCounter Config.default (be 16 0x0123456789abcdefffffffffffffffff) =
      be 16 0x0123456789abcdf00000000000000000 ∧
    incCounter { Config.default with increment := .inc64 } (be 16 0x0123456789abcdefffffffffffffffff) =
      be 16 0x0123456789abcdef0000000000000000 := by decide +kernel

/-- V-DERIVE: base index 1 with OFFSET 0x20 gives 3. -/
theorem test_ctrDerive_or : after (exec .ctrDerive { State.reset.setWindow .iv (be 16 0x0123456789abcdef0000000000000001) with
      offlo := 0x20 }) State.ivBytes = some (be 16 0x0123456789abcdef0000000000000003) := by decide +kernel

/-- V-DERIVE: the largest OFFSET gives index 2^60, without a wrap. -/
theorem test_ctrDerive_exact : after (exec .ctrDerive { State.reset.setWindow .iv (be 16 0x0123456789abcdef0000000000000000) with
      offlo := 0xFFFFFFFF, offhi := 0xFFFFFFFF }) State.ivBytes = some (be 16 0x0123456789abcdef1000000000000000) := by
  decide +kernel

/-- The modulus N2 of 95_test_vectors section 2. -/
def n2 : Nat :=
  0xa80000000000000000000000000000000000000000000000000000000000000000000000000000000000000000000000000000000000000000000000000000000000000000000000000000000000000000000000000000000000000000000000000000000000000000000000000000000000000000000000000000000000f3f02000000000000000000000000000000000000000000000000000000000000000000000000000000000000000000000000000000000000000000000000000000000000000000000000000000000000000000000000000000000000000000000000000000000000000000000000000000000000000000000000000000032e0909b

/-- The signature V-PK-1. -/
def vpk1 : Nat :=
  0x76411d2434c45c04491fbb259f90458ab7ec8ec5fe8c09bfd69bd2c9eb1ed0ca919efbae9e6a8bfd49089cedc7baef7abdb91d070126aa0299e59b95618703551ea3271113a665492f6ca1883a2f65cf34356cf640898cb711c881fabd3b742adb6b9299222f30b21e49fa79981ceb061ed98799c978046b0d107618ee11ba7006262091ca916b43b7dbbe455ac6ad6b4f23ce7f05bcbd09c877cd33d5c70ffe1d7bd12dd523a98726f3bf32a141b46ef78a6bdc2bd8dbcdd47b6fe282ace29a66b690ebd9cc28a58f846147c778f7e19813932a42ed6537d241dee036892fe5f717c4a5436d3e396108663f37eae014aab7efff80b70af3bfbc3bf818dcebac

/-- TAG RSA2048_SHA256, N = n, X = x. -/
def rsaState (n x : Nat) : State :=
  ({ State.reset with tag := 0x00010004 }.setWindow .n (be 256 n)).setWindow .x (be 256 x)

/-- 95_test_vectors 3.5: X = 1 gives 1 and STATUS 0x00000002. -/
theorem test_rsaPub_one : after (exec .rsaPub (rsaState n2 1)) (fun t => (t.readByte 0x8FF, t.statusWord)) =
    some (1, 0x00000002) := by decide +kernel

/-- 43_rsa R152: a tag with a key size but N[0] = 0 is KEY_INIT. -/
theorem test_rsaPub_no_key : after (exec .rsaPub (tagged 0x00010004)) State.statusWord = some 0x00000206 := by
  decide +kernel

/-- The key N2 and DIGEST = SHA256("abc"); X and D are not written. -/
def keyAndDigest : State :=
  ({ State.reset with tag := 0x00010004 }.setWindow .n (be 256 n2)).setWindow .digest
    (be 32 0xba7816bf8f01cfea414140de5dae2223b00361a396177a9cb410ff61f20015ad)

/-- 43_rsa R154: DVALID = 0 is SIGNING, whatever X holds. -/
theorem test_rsaPriv_signing : after (exec .rsaPriv keyAndDigest) State.statusWord = some 0x00000306 := by
  decide +kernel

/-- 43_rsa R152: X = N is RSA_INPUT_RANGE. -/
theorem test_rsaPriv_range : after (exec .rsaPriv { rsaState n2 n2 with dvalid := true }) State.statusWord =
    some 0x00000706 := by decide +kernel

/-- 43_rsa R157's example. -/
theorem test_keyClear : after (exec .keyClear { (State.reset.setWindow .d [1]) with dvalid := true })
    (fun t => (t.statusWord, t.mem)) = some (0x00000002, []) := by decide +kernel

/-- V-VERIFY: V-PK-1 verifies, STATUS 0x00000042. -/
theorem test_pkcsVerify : after (exec .pkcsVerify (keyAndDigest.setWindow .x (be 256 vpk1))) State.statusWord =
    some 0x00000042 := by decide +kernel

/-- V-EM: the first and last bytes of EM. -/
theorem test_encodedMessage : (keyAndDigest.currentEM 256).take 3 = [0x00, 0x01, 0xFF] ∧
    (keyAndDigest.currentEM 256).drop 204 = 0x00#8 :: be 19 0x3031300d060960864801650304020105000420 ++
      be 32 0xba7816bf8f01cfea414140de5dae2223b00361a396177a9cb410ff61f20015ad := by decide +kernel

/-- With D = 1 the signature is EM itself. -/
theorem test_pkcsSign_one : after (exec .pkcsSign { keyAndDigest.setWindow .d (be 256 1) with dvalid := true })
    (fun t => (t.readByte 0x801, t.readByte 0x8FF, t.statusWord)) = some (0x01, 0xad, 0x00000002) := by
  decide +kernel

/-- P5 row 9: D not supplied is SIGNING. -/
theorem test_pkcsSign_signing : after (exec .pkcsSign keyAndDigest) State.statusWord = some 0x00000306 := by
  decide +kernel

/-! ### Bus -/

/-- V-REG. -/
theorem test_reginfo : ([0x00010000, 0x00010001, 0x00010002, 0x00010003, 0x00010004, 0x00010005, 0xFFFFFFFF].map
      (fun t => (tagged t).reginfo)) =
    [0x00011416, 0x00031415, 0x00051404, 0x0002202A, 0x00042029, 0x00062008, 0x00000000] := by decide +kernel

/-- 95_test_vectors 3.7: the illegal word 0x00000301 completes with STATUS 0x00000506. -/
theorem test_illegal_word : after (step (State.reset.withCommand 0x00000301)) State.statusWord = some 0x00000506 := by
  decide +kernel

/-- 20_memory R58: DIGEST beginning ba 78 16 bf reads 0xBF1678BA. -/
theorem test_lanes : (keyAndDigest.busRead 0x060).1 = 0xBF1678BA := by decide +kernel

/-- 95_test_vectors 3.7: an 8-bit write to 0x004 is a bus error. -/
theorem test_byte_write : performAccess 0 { addr := 0x004, shape := .byte, op := .write 1 } State.reset =
    .fault (.busError { addr := 0x004, shape := .byte, op := .write 1 }) := by rfl

/-- 95_test_vectors 3.7: WR 0x004, 1; CMD NOP before completion: STATUS 0x00000001 and IRQ 0. -/
theorem test_issue : after (busWrite 0x00C 0 { State.reset with ie := true, done := true })
    (fun t => (t.statusWord, t.irq)) = some (0x00000001, false) := by decide +kernel

/-- 30_encoding R86: RUN is the command write and a poll of STATUS; LOAD writes the words of 95_test_vectors P1 step 6;
HASHB of three bytes is three HDATA8 writes; DUMP is one read a word begun, and
its words are concatenated as LE32 byte strings. -/
theorem test_run : run 0x40000000 0x00000201 =
    [.bus { addr := 0x4000000C, shape := .word, op := .write 0x00000201 }, .poll 0x40000008 1 0] := by rfl
theorem test_load : load 0 .ref 0 (be 8 0xba7816bf8f01cfea) = [wr 0 0x080 0xbf1678ba, wr 0 0x084 0xeacf018f] := by decide
theorem test_hashb : hashb 0 [0x61, 0x62, 0x63] = [wr 0 0x02C 0x61, wr 0 0x02C 0x62, wr 0 0x02C 0x63] := by decide
theorem test_hashb_word : hashb 0 [0x61, 0x62, 0x63, 0x64, 0x65] = [wr 0 0x028 0x64636261, wr 0 0x02C 0x65] := by decide
theorem test_dump : dump 0 .dbuf 0 8 = [rd 0 0x1000, rd 0 0x1004] := by decide
theorem test_dump_partial : dump 0 .digest 4 5 = [rd 0 0x064, rd 0 0x068] ∧
    dumpBytes 5 [0xFFFFFFFF, 0xBF1678BA, 0xEACF018F] = be 8 0xba7816bf8f01cfea := by decide

/-! ### Witnesses: states and operands that meet the hypotheses of each statement, at the boundary values of each clause -/

/-- IllegalWordCompletesWithIllegalCmd, for the smallest and the largest illegal word. -/
theorem wit_illegal_word :
    (State.reset.withCommand 0x04).turns = [.engine] ∧ (State.reset.withCommand 0x04).pending = some 0x04 ∧
    (0x00000004 : Word) ∉ ([0x00000000, 0x00000001, 0x00000101, 0x00000201, 0x00000002, 0x00000003, 0x00000010,
      0x00000011, 0x00000012, 0x00000013, 0x00000020, 0x00000021, 0x00000022, 0x00000030, 0x00000031] : List Word) := by
  decide

theorem wit_illegal_word_largest : (State.reset.withCommand 0xFFFFFFFF).turns = [.engine] ∧
    (State.reset.withCommand 0xFFFFFFFF).pending = some 0xFFFFFFFF ∧
    (0xFFFFFFFF : Word) ∉ ([0x00000000, 0x00000001, 0x00000101, 0x00000201, 0x00000002, 0x00000003, 0x00000010,
      0x00000011, 0x00000012, 0x00000013, 0x00000020, 0x00000021, 0x00000022, 0x00000030, 0x00000031] : List Word) := by
  exact ⟨rfl, rfl, by decide⟩

/-- StepRunsTheCommandInFlight: the engine's turn in the schedule, and the schedule used up. -/
theorem wit_step_command :
    ((State.reset.withCommand 0x31).pending = some 0x31 ∧ decode { off := 0x00C, data := 0x31 } = .ok .pkcsSign ∧
      (State.reset.withCommand 0x31).turns = [.engine]) ∧
    ({ State.reset with pending := some 0x00 }.pending = some 0x00 ∧ decode { off := 0x00C, data := 0x00 } = .ok .nop ∧
      { State.reset with pending := some 0x00 }.turns = []) := by
  decide

/-- StepRunsTheWriteStatement, for both ports. -/
theorem wit_step_port :
    ∀ off ∈ [0x028, 0x02C], (State.reset.withPortWrite off 7).turns = [.host 0] ∧
      (State.reset.withPortWrite off 7).masters[0]? =
        some { prog := [.bus { addr := off, shape := .word, op := .write 7 }], reads := [] } ∧
      Access.offset Config.default { addr := off, shape := .word, op := .write 7 } = some off ∧
      decode { off := off, data := 7 } = .ok (if off = 0x028 then .hdata32 7 else .hdata8 7) := by
  decide

/-- A state whose next step is this statement of master 0. -/
def hostReady (st : HostStep) : State :=
  { State.reset with turns := [.host 0], masters := [{ prog := [st], reads := [] }] }

/-- StepRunsTheWriteStatement, for CMD, STATUS, a register, a window's last word and the last offset. -/
theorem wit_step_write : ∀ off ∈ [0x00C, 0x008, 0x018, 0x7FC, 0x1FFC],
    (hostReady (wr 0 off 7)).turns = [.host 0] ∧
      (hostReady (wr 0 off 7)).masters[0]? =
        some { prog := [.bus { addr := off, shape := .word, op := .write 7 }], reads := [] } ∧
      Access.offset Config.default { addr := off, shape := .word, op := .write 7 } = some off := by
  decide

/-- PollStatementRepeatsUntilItsConditionHolds: STATUS with BUSY = 0 awaited, at the last legal offset, and past it. -/
theorem wit_poll : ∀ off ∈ [0x008, 0x1FFC, 0x2000, 0x002],
    (hostReady (pollFor 0 off 1 0)).turns = [.host 0] ∧
    (hostReady (pollFor 0 off 1 0)).masters[0]? =
      some { prog := [.poll ((hostReady (pollFor 0 off 1 0)).cfg.base + off) 1 0], reads := [] } ∧
    (off % 4 = 0 ∧ off < 0x2000 ∨ ¬ (off % 4 = 0 ∧ off < 0x2000)) := by
  decide

/-- A POLL whose condition holds is left; one whose condition does not hold stays. -/
theorem wit_poll_both :
    after (step (hostReady (pollFor 0 0x008 1 0))) (fun t => t.masters.map (·.prog.length)) = some [0] ∧
    after (step (hostReady (pollFor 0 0x008 1 1))) (fun t => t.masters.map (·.prog.length)) = some [1] := by
  decide

/-- DumpYieldsTheWindowBytes: no bytes, and one byte more than a word at the end of DIGEST and of KEY. -/
theorem wit_dump : ∀ e ∈ [(Window.digest, 24, 5), (.key, 8, 5), (.dbuf, 4088, 8), (.iv, 0, 0)],
    State.reset.busy = false ∧ State.reset.cfg.dbufBytes ≤ 4096 ∧ e.2.1 % 4 = 0 ∧
    e.2.1 + 4 * ((e.2.2 + 3) / 4) ≤ e.1.size State.reset.cfg ∧
    ({ State.reset with masters := [{ prog := dump 0 e.1 e.2.1 e.2.2, reads := [] }] }.masters[0]?).map (·.prog) =
      some (dump State.reset.cfg.base e.1 e.2.1 e.2.2 ++ []) := by
  decide

/-- ReadStatementReturnsTheWord, for the first and the last offset. -/
theorem wit_read_statement : ∀ off ∈ [0x0000, 0x1FFC], off % 4 = 0 ∧ off < 0x2000 ∧
    (hostReady (rd 0 off)).turns = [.host 0] ∧
    (hostReady (rd 0 off)).masters[0]? =
      some { prog := [.bus { addr := (hostReady (rd 0 off)).cfg.base + off, shape := .word, op := .read }],
             reads := [] } := by
  decide

/-- CommandWriteIssuesOrIsDropped, WritesAreDroppedInExactlyTwoCases, BusyFreezesTheOperands and the others with a busy
and an idle clause. -/
theorem wit_busy_and_idle : (State.reset.withCommand 0x31).busy = true ∧ State.reset.busy = false ∧
    State.reset.hact = false ∧ (hashing .sha1 []).busy = false ∧ (hashing .sha1 []).hact = true := by
  decide

/-- WritesAreDroppedInExactlyTwoCases: legal offsets in case (a), in case (b), and in neither. -/
theorem wit_write_offsets :
    (∀ off ∈ [0x000, 0x00C, 0x028, 0x1FFC], off % 4 = 0 ∧ off < 0x2000 ∧ off ≠ 0x004 ∧ off ≠ 0x008) ∧
    (∀ off ∈ [0x004, 0x008], off % 4 = 0 ∧ off < 0x2000) := by
  decide

/-- OnlyAlignedWordAccessesAreLegal: the first and last legal addresses, and an illegal access of each kind. -/
theorem wit_accesses :
    (∀ off ∈ [0x0000, 0x1FFC], off % 4 = 0 ∧ off ≤ 0x1FFC) ∧
    (∀ a ∈ ([{ addr := 0x2000, shape := .word, op := .read }, { addr := 0x1FFE, shape := .word, op := .read },
        { addr := 0x004, shape := .byte, op := .write 1 }, { addr := 0x004, shape := .half, op := .read },
        { addr := 0x000, shape := .wider 8, op := .read }, { addr := 0x000, shape := .burst 2, op := .read },
        { addr := 0x010, shape := .partialEnables 0x7#4, op := .write 0 }] : List Access),
      performAccess 0 a State.reset = .fault (.busError a)) := by
  refine ⟨by decide, fun a h => ?_⟩
  simp only [List.mem_cons, List.not_mem_nil, or_false] at h
  rcases h with rfl | rfl | rfl | rfl | rfl | rfl | rfl <;> rfl

/-- RegInfoShowsTheRegistry. -/
theorem wit_default_map : (tagged 0x00010004).cfg.sigtypeMap = Config.defaultMap := by rfl

/-- ReservedOffsetsReadZeroAndIgnoreWrites: the ends of every reserved range, DBUF_BYTES at its smallest. -/
theorem wit_reserved_offsets : { Config.default with dbufBytes := 16 }.wellFormed = true ∧
    ∀ off ∈ [0x01C, 0x038, 0x03C, 0x0A0, 0x3FC, 0xA00, 0xFFC, 0x1010, 0x1FFC], off % 4 = 0 ∧
      (off = 0x01C ∨ (0x038 ≤ off ∧ off < 0x040) ∨ (0x0A0 ≤ off ∧ off < 0x400) ∨ (0xA00 ≤ off ∧ off < 0x1000) ∨
        (0x1000 + { Config.default with dbufBytes := 16 }.dbufBytes ≤ off ∧ off < 0x2000)) := by
  decide

/-- WindowWordsUseLittleEndianLanes: the first and last word of every window, idle and busy. -/
theorem wit_window_words : State.reset.busy = false ∧ (State.reset.withCommand 0x31).busy = true ∧ State.reset.cfg.dbufBytes ≤ 4096 ∧
    ∀ w ∈ Window.all, ∀ j ∈ [0, w.size State.reset.cfg - 4], j % 4 = 0 ∧ j + 4 ≤ w.size State.reset.cfg := by
  decide

/-- NoReadRevealsHiddenState: states that differ only in KEY and the hash context, and, busy, in DBUF and HLEN too. -/
theorem wit_hidden :
    (∃ s t : State, s ≠ t ∧ t = { s with mem := t.mem, h := t.h, hbuf := t.hbuf } ∧
      ∀ x, ¬ (0x040 ≤ x ∧ x < 0x050) → ¬ (0x600 ≤ x ∧ x < 0x800) → t.readByte x = s.readByte x) ∧
    (∃ s t : State, s ≠ t ∧ s.busy = true ∧ t = { s with mem := t.mem, h := t.h, hbuf := t.hbuf, hlen := t.hlen } ∧
      ∀ x, 0x080 ≤ x ∧ x < 0x0A0 → t.readByte x = s.readByte x) := by
  refine ⟨⟨State.reset, { State.reset.setWindow .key [1] with h := [1] }, by decide, rfl, fun x h _ => ?_⟩,
    State.reset.withCommand 0x31, { (State.reset.withCommand 0x31).setWindow .dbuf [1] with hlen := 1 }, by decide,
    rfl, rfl, fun x h => ?_⟩
  · have : x < Window.key.base ∨ Window.key.base + [1#8].length ≤ x := by
      simp only [Window.base, List.length_singleton]; omega
    exact State.readByte_storeBytes_outside State.reset _ [1] x this
  · have : x < Window.dbuf.base ∨ Window.dbuf.base + [1#8].length ≤ x := by
      simp only [Window.base, List.length_singleton]; omega
    exact State.readByte_storeBytes_outside (State.reset.withCommand 0x31) _ [1] x this

/-- BusyFreezesTheOperands: a write dropped, and a read answered, while a command is in flight. -/
theorem wit_busy_host_step :
    (stateOf (hostTurn 0 { hostReady (wr 0 0x010 5) with pending := some 0 })).isSome = true ∧
    { hostReady (wr 0 0x010 5) with pending := some 0 }.busy = true := by
  decide

/-- ResetSetsEveryPieceOfState, in a state with a command in flight; no tag of the default map is 0. -/
theorem wit_reset : { comparing 1 with turns := [.reset], pending := some 0x31, ie := true }.turns = .reset :: [] ∧
    ∀ e ∈ { comparing 1 with turns := [.reset] }.cfg.sigtypeMap, e.1 ≠ 0 := by
  decide

/-- EveryCommandCompletesAtomically and the first half of StreamingHashIsTheOneShotDigest: commands and port operations. -/
theorem wit_port_bytes : portBytes .nop = none ∧ portBytes .pkcsSign = none ∧
    [Instr.hdata32 0x64636261, .hdata8 0x65].map portBytes = [[0x61, 0x62, 0x63, 0x64], [0x65]].map some := by
  decide

/-- FlagsAreWrittenOnlyByTheirRules, one state and instruction for each clause. -/
theorem wit_flags :
    after (exec .dgstCmp State.reset) State.result = some true ∧
    after (exec .hashInitSha1 State.reset) (fun t => (t.hact, t.halg)) = some (true, .sha1) ∧
    after (exec .hashFinal (hashing .sha1 [])) State.hact = some false ∧
    after (exec .keyClear { State.reset with dvalid := true }) State.dvalid = some false ∧
    after (exec (.hdata8 0) State.reset) State.perr = some true ∧
    after (exec .aesCtr { State.reset with len := 4097 }) (fun t => (t.done, t.err, t.errcode)) =
      some (true, true, .badLength) := by
  decide +kernel

/-- HashInitStartsAContext and StreamingHashIsTheOneShotDigest: a tag with an algorithm, and one without. -/
theorem wit_hash_tags : digestAlgorithmFor (tagged 0x00010004).sigClass = .sha256 ∧
    digestAlgorithmFor (tagged 0x00010001).sigClass = .sha1 ∧ digestAlgorithmFor (tagged 0).sigClass = .none := by
  decide

/-- Hdata32AbsorbsFourBytes and Hdata8AbsorbsOneByte: every side of the 64-byte limit. -/
theorem wit_ports : ∀ n ∈ [0, 59, 60, 62, 63], (hashing .sha1 (List.replicate n 0x61)).busy = false ∧
    (hashing .sha1 (List.replicate n 0x61)).hact = true ∧ (hashing .sha1 (List.replicate n 0x61)).hbuf.length < 64 := by
  decide

/-- HashFinalWritesTheDigest: contexts of both algorithms, empty and with 63 bytes buffered. -/
theorem wit_hash_final : ∀ alg ∈ [HashAlg.sha1, HashAlg.sha256], ∀ n ∈ [0, 63],
    (hashing alg (List.replicate n 0x61)).hact = true ∧ (hashing alg (List.replicate n 0x61)).halg = alg ∧
      (hashing alg (List.replicate n 0x61)).HashOk := by
  intro alg ha n hn
  simp only [List.mem_cons, List.not_mem_nil, or_false] at ha hn
  rcases ha with rfl | rfl <;> rcases hn with rfl | rfl <;> exact ⟨rfl, rfl, by decide, by decide, by decide, by decide⟩

/-- AesDecryptionInvertsEncryption. -/
theorem wit_aes : (be 16 1).length = 16 ∧ (be 16 2).length = 16 := by decide

/-- The AES commands: the shortest and longest legal LEN, and illegal ones next to them. -/
theorem wit_lengths :
    (∀ n ∈ [0, 16, 4096], (ciphering 0 (BitVec.ofNat 32 n) []).len.toNat ≤ (ciphering 0 0 []).cfg.dbufBytes ∧
      (ciphering 0 (BitVec.ofNat 32 n) []).len.toNat % 16 = 0) ∧
    (∀ n ∈ [4097, 4112], (ciphering 0 0 []).cfg.dbufBytes < (ciphering 0 (BitVec.ofNat 32 n) []).len.toNat) ∧
    (ciphering 0 15 []).len.toNat % 16 ≠ 0 := by
  decide

/-- CtrXorsTheKeystream and CtrDeriveOrsTheBlockIndex: both index fields, both increments, a counter of 16 bytes. -/
theorem wit_index_fields :
    { Config.default with indexField := .loAddr }.wellFormed = true ∧ Config.default.increment = .inc128 ∧
    { Config.default with increment := .inc64 }.wellFormed = true ∧ Config.default.indexField = .hiAddr ∧ (be 16 0xFFFFFFFFFFFFFFFF).length = 16 := by
  decide

/-- CbcChainsAcrossCommands. -/
theorem wit_cbc_parts : (zeros 32).length = 16 * 2 := by decide
theorem wit_cbc_commands : ∀ e ∈ [(0, 0), (0, 1), (1, 0), (100, 156)],
    16 * (e.1 + e.2) ≤ State.reset.cfg.dbufBytes ∧ 16 * (e.1 + e.2) < 2 ^ 32 := by decide

/-- RsaExpIsExactPower: the largest exponent a window holds. -/
theorem wit_exponent : 2 ^ 4096 - 1 < 2 ^ 4096 := by norm_num

/-- Writing X leaves the modulus and the exponent, and X then holds the value. -/
theorem modulus_setX (s : State) (bs : List Byte) : (s.setWindow .x bs).modulus 256 = s.modulus 256 :=
  congrArg os2ip (s.readBytes_storeBytes_outside 0x800 bs 0x400 256 (by omega))

theorem exponent_setX (s : State) (bs : List Byte) : (s.setWindow .x bs).exponent 256 = s.exponent 256 :=
  congrArg os2ip (s.readBytes_storeBytes_outside 0x800 bs 0x600 256 (by omega))

theorem xValue_setX (s : State) (x : Nat) (h : x < 256 ^ 256) : (s.setWindow .x (be 256 x)).xValue 256 = x := by
  have e := s.readBytes_storeBytes 0x800 (be 256 x)
  rw [length_be] at e
  exact (congrArg os2ip e).trans ((os2ip_be 256 x).trans (Nat.mod_eq_of_lt h))

/-- The key N2 with D = 0 supplied; X is not written. -/
def key2 : State := { keyAndDigest with dvalid := true }

theorem key2_n : key2.modulus 256 = n2 := by decide +kernel

/-- A usable 2048-bit key with D = 0 supplied, and X = 1. -/
def keyed : State := key2.setWindow .x (be 256 1)

theorem keyed_n : keyed.modulus 256 = n2 := (modulus_setX _ _).trans key2_n
theorem keyed_x : keyed.xValue 256 = 1 := xValue_setX _ _ (by decide +kernel)
theorem keyed_usable : keyed.KeyUsable 256 := ⟨by decide, by decide +kernel, by rw [keyed_n]; decide +kernel⟩

/-- The RSA and PKCS statements that ask for a usable key, DVALID = 1 and X < N. -/
theorem wit_key : keyed.KeyUsable 256 ∧ keyed.dvalid = true ∧ keyed.xValue 256 < keyed.modulus 256 := by
  rw [keyed_x, keyed_n]
  exact ⟨keyed_usable, rfl, by decide +kernel⟩

/-- A usable 4096-bit key: N = 2^4088 + 1. -/
theorem wit_key_4096 :
    ({ State.reset with tag := 0x00010003 }.setWindow .n (be 512 (2 ^ 4088 + 1))).KeyUsable 512 :=
  ⟨by decide +kernel, by decide +kernel, by decide +kernel⟩

/-- RsaFamilyReportsTheFirstFailingCheck: an invalid tag, a zero modulus, no exponent supplied, X = N. -/
theorem wit_rsa_checks : keySizeFor (tagged 0).sigClass = .invalid ∧
    (keySizeFor (tagged 0x00010004).sigClass).bytes = some 256 ∧ (tagged 0x00010004).readByte 0x400 = 0 ∧
    keyAndDigest.dvalid = false ∧ keyAndDigest.KeyUsable 256 ∧
    (key2.setWindow .x (be 256 n2)).modulus 256 ≤ (key2.setWindow .x (be 256 n2)).xValue 256 := by
  refine ⟨by decide, by decide, by decide, rfl, ⟨by decide, by decide +kernel, by decide +kernel⟩, ?_⟩
  rw [modulus_setX, key2_n, xValue_setX _ _ (by decide +kernel)]

/-- An odd modulus below 2^2047, the product of primes p for which p - 1 divides 735134400. -/
def nSmooth : Nat :=
  0x29f507b207649353686854ba58adbff440091035269f894dd7255bd0cc2a5b7e6fddb6358781712a3b7e11a63da74616ad9adc8d8886fd5c8fcb20e2e71f7c292f3b4487a64f54780932ad3ee2168a1dbb27a5edefb10970ff1fbd26a901c5c70545ce820ab362bc3e29ae5306b6447faaa4d79634da5af46ccc604f1687e32e8534209283bb07782f5bbb9a9584102c9dac916e3503eed64ed98f0df86467c3eac6cfc18092844caf31b893060ba69d13281dbdf78f03df7f8ea6b5ec5fa158d0f655d8f4632473842a8930a2ff8d26e090f49b60f2bfe758be5eef563942f7df68edfa95a3c5b677bba3bd15cc6413ff4e26f631dd6364d64dd0ad2168e0df

/-- The exponent that inverts 65537 modulo 735134400. -/
def dSmooth : Nat := 1203436673

/-- EM of DIGEST = 1 under SHA-256, and its signature EM^D mod N. -/
def emOne : Nat :=
  0x1ffffffffffffffffffffffffffffffffffffffffffffffffffffffffffffffffffffffffffffffffffffffffffffffffffffffffffffffffffffffffffffffffffffffffffffffffffffffffffffffffffffffffffffffffffffffffffffffffffffffffffffffffffffffffffffffffffffffffffffffffffffffffffffffffffffffffffffffffffffffffffffffffffffffffffffffffffffffffffffffffffffffffffffffffffffffffffffffffffffffffffffffffffffffffffffffffffffffffffffffffffff003031300d0609608648016503040201050004200000000000000000000000000000000000000000000000000000000000000001
def sigOne : Nat :=
  0x26e8b9ab906ef18ced70840d7915d416285d6c16a7ee846fd711cdfe30f917ba3558d67a0e91c372a38b2e915eef3a703baf52dbb181c57e3302fa70e1ffbdd322f132e0f1783dca48b07d166680ff5725a96e116a855f708191c64cf1726f99bd10ee0ab841d8d83a50101e2a2bade71e2fc1f8fcec217a2eb1bcee33aaa089c5b57f53103d94723d011ab786a6c2e5d0789317f4a1e9c783ca2c819e60cd05ed068f4d5cf78f928613946743033a8ad4d5a02b44d0dec72cc072dbd8591248ec683f9d02b3b7282363a3ae3e1aae244edbc165038b8e4ece4cff864e1dd43bc7a7c5a0f822c09e613f1424af75f3552f5549ef8bd677f4c0e4a80d29d6272

/-- A power mod n in stages, so that it can be evaluated. -/
theorem pow_stages (x a b c e n : Nat) : x ^ (a * b * c * e) % n = (((x ^ a % n) ^ b % n) ^ c % n) ^ e % n := by
  simp only [pow_mul, ← Nat.pow_mod]

theorem exponent_stages : 65537 * dSmooth = 65537 * 1877 * 1747 * 367 := by decide +kernel

/-- That key with D supplied and DIGEST = 1; X is not written. -/
def signable : State :=
  { (({ State.reset with tag := 0x00010004 }.setWindow .n (be 256 nSmooth)).setWindow .d (be 256 dSmooth)).setWindow .digest
      (be 32 1) with dvalid := true }

theorem signable_n : signable.modulus 256 = nSmooth := by decide +kernel
theorem signable_d : signable.exponent 256 = dSmooth := by decide +kernel
theorem signable_em : os2ip (signable.currentEM 256) = emOne := by decide +kernel

/-- SignThenVerifySucceeds, with that consistent key. -/
theorem wit_sign_verify : signable.KeyUsable 256 ∧ signable.dvalid = true ∧
    os2ip (signable.currentEM 256) ^ (65537 * signable.exponent 256) % signable.modulus 256 =
      os2ip (signable.currentEM 256) := by
  refine ⟨⟨by decide, by decide +kernel, by rw [signable_n]; decide +kernel⟩, rfl, ?_⟩
  rw [signable_n, signable_em, signable_d, exponent_stages, pow_stages]
  decide +kernel

/-- The signature under that key, and the same with the lowest or the highest bit flipped. -/
def signed : State := signable.setWindow .x (be 256 sigOne)
def flippedLow : State := signed.storeBytes (0x800 + 255) [signed.readByte (0x800 + 255) ^^^ 1#8 <<< 0]
def flippedHigh : State := signed.storeBytes (0x800 + 0) [signed.readByte (0x800 + 0) ^^^ 1#8 <<< 7]

theorem signed_n : signed.modulus 256 = nSmooth := (modulus_setX _ _).trans signable_n
theorem signed_d : signed.exponent 256 = dSmooth := (exponent_setX _ _).trans signable_d
theorem signed_x : signed.xValue 256 = sigOne := xValue_setX _ _ (by decide +kernel)
theorem signed_usable : signed.KeyUsable 256 := ⟨by decide, by decide +kernel, by rw [signed_n]; decide +kernel⟩
theorem signed_inverts : signed.xValue 256 ^ (65537 * dSmooth) % signed.modulus 256 = signed.xValue 256 := by
  rw [signed_n, signed_x, exponent_stages, pow_stages]
  decide +kernel
theorem flippedLow_n : flippedLow.modulus 256 = nSmooth :=
  (congrArg os2ip (signed.readBytes_storeBytes_outside (0x800 + 255) _ 0x400 256 (by omega))).trans signed_n
theorem flippedLow_x : flippedLow.xValue 256 = sigOne ^^^ 1 := by decide +kernel
theorem flippedHigh_n : flippedHigh.modulus 256 = nSmooth := (modulus_setX _ _).trans signed_n
theorem flippedHigh_x : nSmooth ≤ flippedHigh.xValue 256 := by decide +kernel
theorem signed_verifies : after (exec .pkcsVerify signed) State.result = some true := by decide +kernel

/-- PrivateThenPublicRestoresX, with that consistent key and X the signature. -/
theorem wit_private_public : signed.KeyUsable 256 ∧ signed.dvalid = true ∧ signed.xValue 256 < signed.modulus 256 ∧
    signed.xValue 256 ^ (65537 * signed.exponent 256) % signed.modulus 256 = signed.xValue 256 := by
  refine ⟨signed_usable, rfl, ?_, ?_⟩
  · rw [signed_n, signed_x]; decide +kernel
  · rw [signed_d]; exact signed_inverts

/-- FlippedSignatureBitFailsVerification: a flip after which S < N still holds, and one after which S >= N. -/
theorem wit_flipped_bit : ∃ t : State, signed.KeyUsable 256 ∧
    signed.xValue 256 ^ (65537 * dSmooth) % signed.modulus 256 = signed.xValue 256 ∧
    flippedLow.xValue 256 < flippedLow.modulus 256 ∧
    flippedLow.xValue 256 ^ (65537 * dSmooth) % flippedLow.modulus 256 = flippedLow.xValue 256 ∧
    flippedHigh.modulus 256 ≤ flippedHigh.xValue 256 ∧
    exec .pkcsVerify signed = .next t ∧ t.result = true := by
  obtain ⟨t, ht⟩ := exec_next .pkcsVerify signed
  have h := signed_verifies
  rw [ht] at h
  refine ⟨t, signed_usable, signed_inverts, ?_, ?_, ?_, ht, Option.some.inj h⟩
  · rw [flippedLow_n, flippedLow_x]; decide +kernel
  · rw [flippedLow_n, flippedLow_x, exponent_stages, pow_stages]; decide +kernel
  · rw [flippedHigh_n]; exact flippedHigh_x

/-- StepKeepsTheInvariant: the state after reset has the invariant, and so has one with a command in flight. -/
theorem wit_invariant : State.reset.Inv ∧ (State.reset.withCommand 0x31).Inv := by
  have h : ∀ s : State, s.mem = [] → ∀ a, Window.d.covers a = true → s.readByte a = 0 := by
    intro s hm a ha
    have hd : 0x600 ≤ a ∧ a < 0x800 := by
      rwa [Window.covers, Bool.and_eq_true, decide_eq_true_eq, decide_eq_true_eq] at ha
    have hf : freeAtReset a = false := by
      simp only [freeAtReset, Window.covers, Bool.or_eq_false_iff, Bool.and_eq_false_iff, decide_eq_false_iff_not]
      exact ⟨Or.inl (show ¬ 0x800 ≤ a by omega), Or.inl (show ¬ 0x1000 ≤ a by omega)⟩
    simp [State.readByte, hm, Memory.lookup, Memory.resetValue, hf]
  exact ⟨⟨by decide, ⟨by decide, fun _ hc => by cases hc⟩, ⟨fun _ => rfl, by decide, by decide, by decide⟩, fun _ => rfl,
      fun _ => h _ rfl⟩,
    ⟨by decide, ⟨by decide, fun _ hc => by cases hc⟩, ⟨fun _ => rfl, by decide, by decide, by decide⟩, fun _ => rfl,
      fun _ => h _ rfl⟩⟩

/-- ResetHasTheInvariant: a legal choice of parameters that differs from the default. -/
theorem wit_parameters : { Config.default with base := 0x2000, dbufBytes := 16 }.wellFormed = true := by decide

/-- OnlyRefusedAccessesStopTheMachine: a step that does stop. -/
theorem wit_stop : step (hostReady (wr 0 0x2000 0)) =
    .fault (.busError { addr := 0x2000, shape := .word, op := .write 0 }) := by rfl

/-- EveryIssuedCommandCompletes: a schedule used up, and a step that runs. -/
theorem wit_issued : { State.reset with pending := some 0x00 }.pending = some 0x00 ∧
    Turn.reset ∉ { State.reset with pending := some 0x00 }.turns ∧
    ∀ n, n ≤ { State.reset with pending := some 0x00 }.turns.length + 1 →
      ∃ u : State, Host.Core.run Sys2Proof.core n { State.reset with pending := some 0x00 } = .next u := by
  refine ⟨rfl, by decide, fun n hn => ?_⟩
  have : n = 0 ∨ n = 1 := by simp only [State.reset, State.resetWith, List.length_nil] at hn; omega
  rcases this with rfl | rfl
  · exact ⟨_, rfl⟩
  · exact ⟨_, rfl⟩

/-- IdleBlockWaits. -/
theorem wit_idle : State.reset.turns = [] ∧ State.reset.pending = none ∧ ∀ x ∈ State.reset.masters, x.prog = [] := by
  decide

end Sys2Proof.Machine.Tests
end

section
/-! PROOFS. The bus as a host sees it: where an offset of the register map leads, what a read depends on and leaves,
which writes are ignored (10_state R22 to R45), and the statements of 10_state about single registers. -/

namespace Sys2Proof.Machine

/-! ### The register map (10_state R21) -/

@[simp] theorem target_id (c : Config) : target c 0x000 = .id := rfl
@[simp] theorem target_ctrl (c : Config) : target c 0x004 = .ctrl := rfl
@[simp] theorem target_status (c : Config) : target c 0x008 = .status := rfl
@[simp] theorem target_cmd (c : Config) : target c 0x00C = .cmd := rfl
@[simp] theorem target_tag (c : Config) : target c 0x010 = .tag := rfl
@[simp] theorem target_reginfo (c : Config) : target c 0x014 = .reginfo := rfl
@[simp] theorem target_len (c : Config) : target c 0x018 = .len := rfl
@[simp] theorem target_offlo (c : Config) : target c 0x020 = .offlo := rfl
@[simp] theorem target_offhi (c : Config) : target c 0x024 = .offhi := rfl
@[simp] theorem target_hdata32 (c : Config) : target c 0x028 = .hdata32 := rfl
@[simp] theorem target_hdata8 (c : Config) : target c 0x02C = .hdata8 := rfl
@[simp] theorem target_hlenlo (c : Config) : target c 0x030 = .hlenlo := rfl
@[simp] theorem target_hlenhi (c : Config) : target c 0x034 = .hlenhi := rfl

theorem Window.covers_iff (w : Window) (a : Nat) : w.covers a = true ↔ w.base ≤ a ∧ a < w.base + w.span := by
  rw [Window.covers, Bool.and_eq_true, decide_eq_true_eq, decide_eq_true_eq]

/-- Past the registers only the windows answer; 0x01C is a hole among the registers. -/
theorem target_eq_windowTarget (c : Config) {off : Nat} (h : off = 0x01C ∨ 0x038 ≤ off) :
    target c off = windowTarget c off Window.all := by
  unfold target
  iterate 13 rw [if_neg (by omega)]

/-- An offset that no window has storage for is reserved. -/
theorem windowTarget_eq_reserved {c : Config} {off : Nat} {ws : List Window}
    (h : ∀ w ∈ ws, w.covers off = true → w.size c < off - w.base + 4) : windowTarget c off ws = .reserved := by
  induction ws with
  | nil => rfl
  | cons w ws ih =>
    obtain ⟨hw, hws⟩ := List.forall_mem_cons.mp h
    by_cases hc : w.covers off = true
    · rw [windowTarget, if_pos hc, if_neg (Nat.not_le.mpr (hw hc))]
    · rw [windowTarget, if_neg hc, ih hws]

/-- A window word lies at its offset, all four bytes inside the window's storage. -/
theorem windowTarget_eq_window {c : Config} {off : Nat} {ws : List Window} {w : Window} {j : Nat}
    (h : windowTarget c off ws = .window w j) : off = w.base + j ∧ j + 4 ≤ w.size c := by
  induction ws with
  | nil => cases h
  | cons v ws ih =>
    rw [windowTarget] at h
    split at h
    case isTrue hc =>
      have hb := ((v.covers_iff off).mp hc).1
      split at h
      case isTrue hs => cases h; omega
      case isFalse => cases h
    case isFalse => exact ih h

theorem target_eq_window {c : Config} {off : Nat} {w : Window} {j : Nat} (h : target c off = .window w j) :
    off = w.base + j ∧ j + 4 ≤ w.size c := by
  simp only [target, ite_eq_iff, reduceCtorEq, and_false, false_or] at h
  exact windowTarget_eq_window (by tauto)

theorem Window.size_le_span {c : Config} (h : c.dbufBytes ≤ 4096) (w : Window) : w.size c ≤ w.span := by
  cases w
  case dbuf => exact h
  all_goals exact le_rfl

/-- The bytes of a word of any other window lie outside KEY and D. -/
theorem Window.word_avoids_secrets {c : Config} {w : Window} {i j : Nat} (hk : w ≠ .key) (hd : w ≠ .d)
    (hj : j + 4 ≤ w.size c) (hi : i < 4) :
    ¬ (0x040 ≤ w.base + j + i ∧ w.base + j + i < 0x050) ∧ ¬ (0x600 ≤ w.base + j + i ∧ w.base + j + i < 0x800) := by
  cases w
  case key => exact absurd rfl hk
  case d => exact absurd rfl hd
  all_goals
    simp only [Window.base, Window.span, Window.size] at hj ⊢
    omega

/-! ### Reads -/

theorem State.engineRead_of_busy {s : State} (h : s.busy = true) (v : Word) : s.engineRead v = s.drawRead :=
  if_pos h

theorem State.engineRead_of_idle {s : State} (h : s.busy = false) (v : Word) : s.engineRead v = (v, s) := by
  rw [State.engineRead, h]; rfl

/-- A window read is zero for the secrets, the value for REF, and a read of engine storage otherwise
(10_state R33, R38, R43). -/
theorem State.readWindow_cases (w : Window) (j : Nat) (s : State) :
    ((w = .key ∨ w = .d) ∧ s.readWindow w j = (0, s)) ∨
    (w = .ref ∧ s.readWindow w j = (le32 (s.readBytes (w.base + j) 4), s)) ∨
    (w ≠ .key ∧ w ≠ .d ∧ w ≠ .ref ∧ s.readWindow w j = s.engineRead (le32 (s.readBytes (w.base + j) 4))) := by
  cases w
  case key => exact .inl ⟨.inl rfl, rfl⟩
  case d => exact .inl ⟨.inr rfl, rfl⟩
  case ref => exact .inr (.inl ⟨rfl, rfl⟩)
  all_goals exact .inr (.inr ⟨nofun, nofun, nofun, rfl⟩)

/-- A read of engine storage leaves the state, but that while BUSY it takes a free value. -/
theorem State.engineRead_snd (v : Word) (s : State) :
    (s.engineRead v).2 = s ∨ (s.busy = true ∧ (s.engineRead v).2 = { s with draws := s.draws + 1 }) := by
  rcases s.engineRead_cases v with ⟨-, h⟩ | ⟨hb, h⟩
  · exact .inl (by rw [h])
  · exact .inr ⟨hb, by rw [h]; rfl⟩

/-- Every read leaves the state, but that while BUSY it may take a free value (10_state R43; 20_memory R60). -/
theorem State.busRead_snd (off : Nat) (s : State) :
    (s.busRead off).2 = s ∨ (s.busy = true ∧ (s.busRead off).2 = { s with draws := s.draws + 1 }) := by
  unfold State.busRead
  cases target s.cfg off with
  | window w j =>
    change (s.readWindow w j).2 = s ∨ (s.busy = true ∧ (s.readWindow w j).2 = { s with draws := s.draws + 1 })
    rcases s.readWindow_cases w j with ⟨-, h⟩ | ⟨-, h⟩ | ⟨-, -, -, h⟩ <;> rw [h]
    · exact .inl rfl
    · exact .inl rfl
    · exact s.engineRead_snd _
  | hlenlo => exact s.engineRead_snd _
  | hlenhi => exact s.engineRead_snd _
  | _ => exact .inl rfl

theorem State.readBytes_congr {s t : State} {a n : Nat} (h : ∀ i < n, t.readByte (a + i) = s.readByte (a + i)) :
    t.readBytes a n = s.readBytes a n :=
  List.map_congr_left fun i hi => h i (List.mem_range.mp hi)

theorem State.engineRead_fst_congr {s t : State} {v v' : Word} (hp : t.busy = s.busy) (hd : t.draws = s.draws)
    (hv : s.busy = false → v' = v) : (t.engineRead v').1 = (s.engineRead v).1 := by
  cases hb : s.busy with
  | false => rw [engineRead_of_idle hb, engineRead_of_idle (hp.trans hb), hv hb]
  | true => rw [engineRead_of_busy hb, engineRead_of_busy (hp.trans hb), drawRead_fst, drawRead_fst, hd]

/-- The word a window read returns depends on no byte of KEY and D, and while BUSY on no byte outside REF. -/
theorem State.readWindow_fst_congr {s t : State} {w : Window} {j : Nat} (hp : t.busy = s.busy)
    (hd : t.draws = s.draws)
    (hr : w ≠ .key → w ≠ .d → (s.busy = true → w = .ref) →
      ∀ i < 4, t.readByte (w.base + j + i) = s.readByte (w.base + j + i)) :
    (t.readWindow w j).1 = (s.readWindow w j).1 := by
  rcases t.readWindow_cases w j with ⟨hw, ht⟩ | ⟨rfl, ht⟩ | ⟨hk, hdw, href, ht⟩ <;> rw [ht]
  · rcases hw with rfl | rfl <;> rfl
  · exact congrArg le32 (readBytes_congr (hr nofun nofun fun _ => rfl))
  · rcases s.readWindow_cases w j with ⟨hw, -⟩ | ⟨hw, -⟩ | ⟨-, -, -, hs⟩
    · exact absurd hw (by tauto)
    · exact absurd hw href
    · rw [hs]
      refine engineRead_fst_congr hp hd fun hb => congrArg le32 (readBytes_congr (hr hk hdw ?_))
      intro hb'
      exact absurd (hb.symm.trans hb') nofun

/-- The word a read returns depends on the stored bytes through the window at its offset alone, not on H and HBUF, and
on HLEN only with no command in flight. -/
theorem State.busRead_fst_congr {s t : State} {off : Nat}
    (ht : t = { s with mem := t.mem, h := t.h, hbuf := t.hbuf, hlen := t.hlen })
    (hl : s.busy = false → t.hlen = s.hlen)
    (hw : ∀ w j, target s.cfg off = .window w j → (t.readWindow w j).1 = (s.readWindow w j).1) :
    (t.busRead off).1 = (s.busRead off).1 := by
  obtain ⟨m, h, b, l, rfl⟩ : ∃ m h b l, t = { s with mem := m, h := h, hbuf := b, hlen := l } := ⟨_, _, _, _, ht⟩
  unfold State.busRead
  cases htg : target s.cfg off with
  | window w j => exact hw w j htg
  | hlenlo => exact engineRead_fst_congr rfl rfl fun hb => congrArg (BitVec.extractLsb' 0 32) (hl hb)
  | hlenhi => exact engineRead_fst_congr rfl rfl fun hb => congrArg (BitVec.extractLsb' 32 32) (hl hb)
  | _ => rfl

/-! ### Writes -/

theorem State.dropsWrite_of_idle {s : State} (h : s.busy = false) (off : Nat) : s.dropsWrite off = false := by
  rw [State.dropsWrite, h]; rfl

/-- Every offset but CTRL and STATUS drops a write exactly while BUSY (60_exceptions R209). -/
theorem State.dropsWrite_eq_busy {off : Nat} (h4 : off ≠ 0x004) (h8 : off ≠ 0x008) (s : State) :
    s.dropsWrite off = s.busy := by
  simp [State.dropsWrite, h4, h8]

/-- A read-only register and a reserved offset ignore a write, which sets PERR while BUSY (10_state R22). -/
theorem busWrite_ignored {s : State} {off : Nat} (h4 : off ≠ 0x004) (h8 : off ≠ 0x008)
    (ht : target s.cfg off ∈ [.id, .reginfo, .hlenlo, .hlenhi, .reserved]) (v : Word) :
    busWrite off v s = .next (if s.busy = true then { s with perr := true } else s) := by
  have hd := State.dropsWrite_eq_busy h4 h8 s
  simp only [List.mem_cons, List.not_mem_nil, or_false] at ht
  rcases ht with ht | ht | ht | ht | ht <;> simp only [busWrite, ht, hd, State.dropWrite]

theorem busWrite_cmd_of_busy {s : State} (h : s.busy = true) (v : Word) :
    busWrite 0x00C v s = .next { s with perr := true } := by
  simp only [busWrite, target_cmd, State.dropsWrite_eq_busy (off := 0x00C) (by decide) (by decide), h, if_true,
    State.dropWrite]

theorem busWrite_cmd_of_idle {s : State} (h : s.busy = false) (v : Word) :
    busWrite 0x00C v s = .next (s.issue v) := by
  simp [busWrite, State.dropsWrite_of_idle h]

@[simp] theorem busWrite_status (v : Word) (s : State) : busWrite 0x008 v s = .next (s.writeStatus v) := rfl

@[simp] theorem busWrite_ctrl (v : Word) (s : State) : busWrite 0x004 v s = .next (s.writeCtrl v) := rfl

/-! ### The words CTRL and STATUS read as -/

theorem State.ctrlWord_getLsbD (s : State) (i : Nat) : s.ctrlWord.getLsbD i = (decide (i = 0) && s.ie) := by
  rw [State.ctrlWord, BitVec.getLsbD_append]
  cases i <;> simp

theorem getLsbD_append_ofBool {n : Nat} (x : BitVec n) (b : Bool) (i : Nat) :
    (x ++ BitVec.ofBool b).getLsbD i = if i = 0 then b else x.getLsbD (i - 1) := by
  rw [BitVec.getLsbD_append]
  cases i <;> simp

/-- The bits of STATUS, the flags first (10_state R26). -/
theorem State.statusWord_getLsbD (s : State) (i : Nat) : s.statusWord.getLsbD i =
    match i with
    | 0 => s.busy
    | 1 => s.done
    | 2 => s.err
    | 3 => s.perr
    | 4 => s.hact
    | 5 => s.dvalid
    | 6 => s.result
    | 7 => false
    | k + 8 => if k < 8 then s.errcode.code.getLsbD k else s.halg.code.getLsbD (k - 8) := by
  unfold State.statusWord
  iterate 7 rw [getLsbD_append_ofBool]
  iterate 3 rw [BitVec.getLsbD_append]
  rcases i with _ | _ | _ | _ | _ | _ | _ | _ | k <;> simp [Nat.sub_sub]
  split_ifs
  · rfl
  · rw [Bool.and_eq_right_iff_imp]
    exact fun h => decide_eq_true (by have := BitVec.lt_of_getLsbD h; omega)

theorem State.statusWord_errcode (s : State) : s.statusWord.extractLsb' 8 8 = s.errcode.code := by
  refine BitVec.eq_of_getLsbD_eq fun i hi => ?_
  rw [BitVec.getLsbD_extractLsb', Nat.add_comm, State.statusWord_getLsbD]
  simp [hi]

theorem State.statusWord_halg (s : State) : s.statusWord.extractLsb' 16 2 = s.halg.code := by
  refine BitVec.eq_of_getLsbD_eq fun i hi => ?_
  rw [BitVec.getLsbD_extractLsb', show 16 + i = i + 8 + 8 by omega, State.statusWord_getLsbD]
  simp [hi]

theorem State.statusWord_reserved (s : State) : s.statusWord.extractLsb' 18 14 = 0 := by
  refine BitVec.eq_of_getLsbD_eq fun i hi => ?_
  rw [BitVec.getLsbD_extractLsb', show 18 + i = i + 10 + 8 by omega, State.statusWord_getLsbD]
  simp

theorem State.ctrlWord_writeCtrl (s : State) (v : Word) : (s.writeCtrl v).ctrlWord = v &&& 0x00000001 := by
  refine BitVec.eq_of_getLsbD_eq fun i hi => ?_
  rw [State.ctrlWord_getLsbD, BitVec.getLsbD_and]
  cases i
  · simp
  · simp
/-! ### The statements -/

/-- Settles O8: both cases are the CMD arm of a write. -/
theorem commandWriteIssuesOrIsDropped : Obligations.CommandWriteIssuesOrIsDropped := by
  intro s v
  refine ⟨rfl, fun hb => busWrite_cmd_of_busy hb v, fun hb => ⟨s.issue v, busWrite_cmd_of_idle hb v, rfl, rfl, ?_⟩⟩
  rw [State.irq, State.issue_done, Bool.and_false]

/-- Settles O10: the write is `State.writeStatus`, which clears by the bits of v. -/
theorem statusWriteClearsOnlyWrittenFlags : Obligations.StatusWriteClearsOnlyWrittenFlags := by
  intro s v
  have hclear (a b : Bool) : (a && !b) = if b then false else a := by cases b <;> simp
  exact ⟨s.writeStatus v, busWrite_status v s, hclear _ _, hclear _ _, hclear _ _, rfl⟩

/-- Settles O11: the write is `State.writeCtrl` in any state, and the word read back holds IE alone. -/
theorem ctrlHoldsOnlyTheInterruptEnable : Obligations.CtrlHoldsOnlyTheInterruptEnable := fun s v =>
  ⟨s.writeCtrl v, busWrite_ctrl v s, rfl, s.ctrlWord_writeCtrl v, rfl, s.resetBlock_ie⟩

/-- Settles O13: ID is read-only, so a write to it is ignored. -/
theorem idReadsItsConstant : Obligations.IdReadsItsConstant := fun s v =>
  ⟨rfl, busWrite_ignored (by decide) (by decide) (by simp) v⟩

/-- Settles O14: each field by the bits of the STATUS word that hold it. -/
theorem statusReadShowsItsFields : Obligations.StatusReadShowsItsFields := by
  intro s
  have hbit := s.statusWord_getLsbD
  refine ⟨s.statusWord, rfl, hbit 0, hbit 1, hbit 2, hbit 3, hbit 4, hbit 5, hbit 6, hbit 7, ?_, ?_,
    s.statusWord_reserved⟩
  · rw [s.statusWord_errcode]; cases s.errcode <;> rfl
  · rw [s.statusWord_halg]; cases s.halg <;> rfl

/-- Settles O16: no window has storage at such an offset. -/
theorem reservedOffsetsReadZeroAndIgnoreWrites : Obligations.ReservedOffsetsReadZeroAndIgnoreWrites := by
  intro s off v h4 hoff
  have htarget : target s.cfg off = .reserved := by
    rw [target_eq_windowTarget s.cfg (by omega)]
    refine windowTarget_eq_reserved fun w _ hc => ?_
    rw [Window.covers_iff] at hc
    cases w <;> simp only [Window.base, Window.span, Window.size] at hc ⊢ <;> omega
  refine ⟨?_, busWrite_ignored (by omega) (by omega) (by simp [htarget]) v⟩
  simp only [State.busRead, htarget]

/-- Settles O18: each register by its arm of the map; OFFSET is a concatenation, so its halves add up. -/
theorem hostRegistersHoldWhatIsWritten : Obligations.HostRegistersHoldWhatIsWritten := by
  intro s v
  have hoffset : s.offset.toNat = s.offhi.toNat * 2 ^ 32 + s.offlo.toNat := by
    rw [State.offset, BitVec.toNat_append, ← Nat.shiftLeft_add_eq_or_of_lt s.offlo.isLt, Nat.shiftLeft_eq]
  refine ⟨fun hb => ?_, rfl, rfl, rfl, rfl, hoffset, rfl, rfl⟩
  have hd := State.dropsWrite_of_idle hb
  refine ⟨?_, ?_, ?_, ?_, ?_, ?_, ?_, State.engineRead_of_idle hb _, State.engineRead_of_idle hb _⟩ <;>
    simp [busWrite, hd]

/-- Settles O19: by what every read leaves. -/
theorem readsHaveNoSideEffect : Obligations.ReadsHaveNoSideEffect := by
  intro s off
  rcases s.busRead_snd off with h | ⟨hb, h⟩
  · exact ⟨fun _ => h, .inl h⟩
  · exact ⟨fun hidle => absurd (hidle.symm.trans hb) nofun, .inr h⟩

/-- Settles O20: the bytes a window word shows lie outside KEY and D, and while BUSY only REF shows any. -/
theorem noReadRevealsHiddenState : Obligations.NoReadRevealsHiddenState := by
  intro s t off
  refine ⟨fun ht hbytes => ?_, fun hbusy ht hbytes => ?_⟩
  · have hpending : t.pending = s.pending := by rw [ht]
    refine State.busRead_fst_congr (by rw [ht]) (fun _ => by rw [ht]) fun w j htarget => ?_
    obtain ⟨-, hj⟩ := target_eq_window htarget
    refine State.readWindow_fst_congr (congrArg Option.isSome hpending) (by rw [ht]) fun hk hd _ i hi => ?_
    obtain ⟨hkey, hexp⟩ := Window.word_avoids_secrets hk hd hj hi
    exact hbytes _ hkey hexp
  · have hpending : t.pending = s.pending := by rw [ht]
    refine State.busRead_fst_congr ht (fun hidle => absurd (hidle.symm.trans hbusy) nofun) fun w j htarget => ?_
    obtain ⟨-, hj⟩ := target_eq_window htarget
    refine State.readWindow_fst_congr (congrArg Option.isSome hpending) (by rw [ht]) fun _ _ hw i hi => ?_
    obtain rfl := hw hbusy
    apply hbytes
    simp only [Window.base, Window.span, Window.size] at hj ⊢
    omega

end Sys2Proof.Machine
end

section
/-! PROOFS. What an instruction can do to the state, said once (30_encoding R81, R85; 60_exceptions R205): a completion,
possibly after stores and a scrub, a step of the hash context, or a port write that is absorbed or dropped. -/

namespace Sys2Proof.Machine

/-! ### The length of what the engines compute -/

theorem length_aesE_le (k b : List Byte) : (aesE k b).length ≤ 16 := by
  simp [aesE, addRoundKey, shiftRows]

theorem length_cbcEncrypt_le (k : List Byte) (n : Nat) (c m : List Byte) :
    (cbcEncrypt k n c m).1.length ≤ 16 * n := by
  induction n generalizing c m with
  | zero => exact Nat.le_refl 0
  | succ n ih =>
    simp only [cbcEncrypt, List.length_append]
    have hblock := length_aesE_le k (xorBytes (m.take 16) c)
    have hrest := ih (aesE k (xorBytes (m.take 16) c)) (m.drop 16)
    omega

theorem length_cbcEncrypt_chain_le (k : List Byte) (n : Nat) (c m : List Byte) (h : c.length ≤ 16) :
    (cbcEncrypt k n c m).2.length ≤ 16 := by
  induction n generalizing c m with
  | zero => exact h
  | succ n ih =>
    simp only [cbcEncrypt]
    exact ih (aesE k (xorBytes (m.take 16) c)) (m.drop 16) (length_aesE_le k (xorBytes (m.take 16) c))

theorem length_cbcDecrypt_le (k : List Byte) (n : Nat) (c m : List Byte) (h : c.length ≤ 16) :
    (cbcDecrypt k n c m).1.length ≤ 16 * n := by
  induction n generalizing c m with
  | zero => exact Nat.le_refl 0
  | succ n ih =>
    have htake : (m.take 16).length ≤ 16 := List.length_take_le 16 m
    have hrest := ih (m.take 16) (m.drop 16) htake
    simp only [cbcDecrypt, List.length_append, length_xorBytes]
    omega

theorem length_cbcDecrypt_chain_le (k : List Byte) (n : Nat) (c m : List Byte) (h : c.length ≤ 16) :
    (cbcDecrypt k n c m).2.length ≤ 16 := by
  induction n generalizing c m with
  | zero => exact h
  | succ n ih => exact ih (m.take 16) (m.drop 16) (List.length_take_le 16 m)

theorem length_ctrStream_le (cfg : Config) (k : List Byte) (n : Nat) (c m : List Byte) :
    (ctrStream cfg k n c m).length ≤ m.length := by
  induction n generalizing c m with
  | zero => exact Nat.zero_le _
  | succ n ih =>
    have hrest := ih (incCounter cfg c) (m.drop 16)
    simp only [ctrStream, List.length_append, length_xorBytes, List.length_take, List.length_drop] at hrest ⊢
    omega

theorem length_deriveCounter_le (f : IndexField) (c : List Byte) (off : DWord) :
    (deriveCounter f c off).length ≤ 16 := by
  cases f with
  | hiAddr => simp [deriveCounter, setIndex]
  | loAddr => simp [deriveCounter, setIndex]; omega

theorem length_digestWindow (alg : HashAlg) (h : List Word) : (digestWindow alg h).length = 32 := by
  cases alg <;> simp [digestWindow, digestOf, HashAlg.digestBytes, be32Bytes]

@[simp] theorem length_compress (alg : HashAlg) (h : List Word) (b : List Byte) :
    (alg.compress h b).length = h.length := by
  cases alg with
  | none => rfl
  | sha1 => simp only [HashAlg.compress, compress1]; split <;> simp only [List.length_cons, List.length_nil]
  | sha256 => simp only [HashAlg.compress, compress256]; split <;> simp only [List.length_cons, List.length_nil]

/-- A key size's operand length fits the windows N, D and X (43_rsa R151). -/
theorem KeySize.bytes_le {z : KeySize} {k : Nat} (h : z.bytes = some k) : k ≤ 512 := by
  cases z <;> simp [KeySize.bytes] at h <;> omega

theorem State.rsaChecks_le {s : State} {k : Nat} (h : s.rsaChecks = .ok k) : k ≤ 512 :=
  KeySize.bytes_le ((s.rsaChecks_ok_iff k).mp h).1

/-! ### The effect of an instruction -/

/-- u is s after stores of an engine's results, each within the storage of IV, X or DBUF. -/
inductive State.EngineStores (s : State) : State → Prop where
  | same : EngineStores s s
  | store {u : State} {w : Window} {bs : List Byte} : EngineStores s u → w = .iv ∨ w = .x ∨ w = .dbuf →
      bs.length ≤ w.size s.cfg → EngineStores s (u.setWindow w bs)

/-- The commands that scrub on every outcome (43_rsa R153, R157). -/
def ScrubsKey (i : Instr) : Prop :=
  i = .rsaPub ∨ i = .rsaPriv ∨ i = .keyClear ∨ i = .pkcsVerify ∨ i = .pkcsSign

/-- The three forms of HASH_INIT (30_encoding R83). -/
def StartsHash (i : Instr) : Prop := i = .hashInitTag ∨ i = .hashInitSha1 ∨ i = .hashInitSha256

theorem ScrubsKey.portBytes {i : Instr} (h : ScrubsKey i) : portBytes i = none := by
  rcases h with rfl | rfl | rfl | rfl | rfl <;> rfl

theorem StartsHash.portBytes {i : Instr} (h : StartsHash i) : portBytes i = none := by
  rcases h with rfl | rfl | rfl <;> rfl

/-- What the meaning of an instruction can do to s; `exec_effect` ties it to the model. -/
inductive Effect (s : State) : Instr → State → Prop where
  /-- A completion, after the stores of the cipher commands. -/
  | completed {i : Instr} {u : State} (c : ErrCode) : portBytes i = none → s.EngineStores u → Effect s i (u.complete c)
  /-- A completion that scrubs, after a store of X; PKCS_VERIFY alone writes RESULT. -/
  | scrubbed {i : Instr} {u : State} (r : Bool) (c : ErrCode) : ScrubsKey i → s.EngineStores u →
      (r = s.result ∨ i = .pkcsVerify) → Effect s i ({ u with result := r }.completeScrubbed c)
  /-- HASH_INIT with an algorithm. -/
  | hashStarted {i : Instr} {alg : HashAlg} : StartsHash i → alg ≠ .none →
      Effect s i ((s.startHash alg).complete .none)
  /-- HASH_FINAL with an active context. -/
  | hashFinished : s.hact = true → Effect s .hashFinal (s.finishHash.complete .none)
  /-- DGST_CMP. -/
  | compared (r : Bool) : Effect s .dgstCmp ({ s with result := r }.complete .none)
  /-- A port write that the port takes. -/
  | absorbed {i : Instr} {bs : List Byte} : portBytes i = some bs → s.portOpen = true → Effect s i (s.absorbAll bs)
  /-- A port write that is dropped. -/
  | dropped {i : Instr} {bs : List Byte} : portBytes i = some bs → s.portOpen = false → Effect s i s.dropWrite

/-- An RSA-family completion that stores nothing and leaves RESULT. -/
theorem Effect.scrubbedOnly {s : State} {i : Instr} (hi : ScrubsKey i) (c : ErrCode) :
    Effect s i (s.completeScrubbed c) :=
  .scrubbed (u := s) s.result c hi .same (.inl rfl)

/-- An RSA-family completion after a store of X[0..k). -/
theorem Effect.scrubbedX {s : State} {i : Instr} (hi : ScrubsKey i) {bs : List Byte} (hl : bs.length ≤ 512)
    (c : ErrCode) : Effect s i ((s.setWindow .x bs).completeScrubbed c) :=
  .scrubbed (u := s.setWindow .x bs) s.result c hi (.store .same (.inr (.inl rfl)) hl) (.inl rfl)

theorem hashInit_effect {s t : State} {i : Instr} {alg : HashAlg} (hp : portBytes i = none) (hi : StartsHash i)
    (h : hashInit alg s = .next t) : Effect s i t := by
  rcases hashInit_cases alg s with ⟨-, he⟩ | ⟨ha, he⟩ <;> rw [he] at h <;> cases h
  · exact .completed _ hp .same
  · exact .hashStarted hi ha

theorem rawExp_effect {s : State} {i : Instr} {k : Nat} (hi : ScrubsKey i) (hk : k ≤ 512) (e : Nat) :
    Effect s i (rawExp k e s) := by
  unfold rawExp
  split
  · exact .scrubbedOnly hi _
  · exact .scrubbedX hi (by rwa [length_i2osp]) _

/-- The CBC length check leaves a LEN of whole blocks inside DBUF. -/
theorem State.badCbcLength_false {s : State} (h : ¬ s.badCbcLength = true) :
    s.lenBytes ≤ s.cfg.dbufBytes ∧ s.lenBytes % 16 = 0 := by
  simpa [State.badCbcLength] using h

/-- A CBC command: BAD_LENGTH, or its two stores. -/
theorem cbc_effect {s t : State} {i : Instr} {r : List Byte × List Byte} (hp : portBytes i = none)
    (hdata : r.1.length ≤ 16 * (s.lenBytes / 16)) (hchain : r.2.length ≤ 16)
    (h : (if s.badCbcLength then Host.Outcome.next (s.raise .badLength)
      else .next (((s.setWindow .dbuf r.1).setWindow .iv r.2).complete .none) : Host.Outcome State Fault Refusal) =
        .next t) : Effect s i t := by
  split at h <;> cases h
  case isTrue => exact .completed _ hp .same
  case isFalse hlen =>
    have hfit : r.1.length ≤ s.cfg.dbufBytes := by
      have := State.badCbcLength_false hlen
      omega
    exact .completed _ hp (.store (.store .same (.inr (.inr rfl)) hfit) (.inl rfl) hchain)

theorem execAesCtr_effect {s t : State} (h : execAesCtr s = .next t) : Effect s .aesCtr t := by
  unfold execAesCtr at h
  split at h <;> cases h
  case isTrue => exact .completed _ rfl .same
  case isFalse hlen =>
    have hfit : s.ctrResult.length ≤ s.cfg.dbufBytes := by
      refine le_trans (length_ctrStream_le _ _ _ _ _) ?_
      simpa [State.dataBytes, State.badCtrLength] using hlen
    exact .completed _ rfl (.store .same (.inr (.inr rfl)) hfit)

theorem execRsaPub_effect {s t : State} (h : execRsaPub s = .next t) : Effect s .rsaPub t := by
  have hi : ScrubsKey .rsaPub := .inl rfl
  unfold execRsaPub at h
  split at h <;> cases h
  case h_1 => exact .scrubbedOnly hi _
  case h_2 hk => exact rawExp_effect hi (State.rsaChecks_le hk) _

theorem execRsaPriv_effect {s t : State} (h : execRsaPriv s = .next t) : Effect s .rsaPriv t := by
  have hi : ScrubsKey .rsaPriv := .inr (.inl rfl)
  unfold execRsaPriv at h
  split at h
  case h_1 => cases h; exact .scrubbedOnly hi _
  case h_2 hk =>
    split at h <;> cases h
    · exact rawExp_effect hi (State.rsaChecks_le hk) _
    · exact .scrubbedOnly hi _

theorem execPkcsVerify_effect {s t : State} (h : execPkcsVerify s = .next t) : Effect s .pkcsVerify t := by
  have hi : ScrubsKey .pkcsVerify := .inr (.inr (.inr (.inl rfl)))
  unfold execPkcsVerify at h
  split at h <;> cases h <;> exact .scrubbed _ _ hi .same (.inr rfl)

theorem execPkcsSign_effect {s t : State} (h : execPkcsSign s = .next t) : Effect s .pkcsSign t := by
  have hi : ScrubsKey .pkcsSign := .inr (.inr (.inr (.inr rfl)))
  unfold execPkcsSign at h
  split at h
  case h_1 => cases h; exact .scrubbedOnly hi _
  case h_2 o ho =>
    have hk : o.k ≤ 512 := State.rsaChecks_le (State.pkcsChecks_ok ho).1
    split at h <;> cases h
    · exact .scrubbedX hi (by rwa [length_i2osp]) _
    · exact .scrubbedOnly hi _

/-- A port operation absorbs its bytes or is dropped (41_digest R114, R115). -/
theorem port_effect {s t : State} {i : Instr} {bs : List Byte} (hp : portBytes i = some bs)
    (h : (if s.portOpen then Host.Outcome.next (s.absorbAll bs) else .next s.dropWrite :
      Host.Outcome State Fault Refusal) = .next t) : Effect s i t := by
  split at h <;> cases h
  case isTrue ho => exact .absorbed hp ho
  case isFalse ho => exact .dropped hp (Bool.eq_false_iff.mpr ho)

/-- Every meaning of an instruction has one of the effects: the dispatch of exec, arm by arm. -/
theorem exec_effect {s t : State} {i : Instr} (h : exec i s = .next t) : Effect s i t := by
  have hiv : s.ivBytes.length ≤ 16 := (length_window s .iv 16).le
  cases i
  case nop => cases h; exact .completed _ rfl .same
  case hashInitTag => exact hashInit_effect rfl (.inl rfl) h
  case hashInitSha1 => exact hashInit_effect (alg := .sha1) rfl (.inr (.inl rfl)) h
  case hashInitSha256 => exact hashInit_effect (alg := .sha256) rfl (.inr (.inr rfl)) h
  case hashFinal =>
    simp only [exec, execHashFinal] at h
    split at h <;> cases h
    case isTrue ha => exact .hashFinished ha
    case isFalse => exact .completed _ rfl .same
  case dgstCmp => cases h; exact .compared _
  case aesCbcEnc =>
    exact cbc_effect (r := s.cbcEncResult) rfl (length_cbcEncrypt_le _ _ _ _)
      (length_cbcEncrypt_chain_le _ _ _ _ hiv) h
  case aesCbcDec =>
    exact cbc_effect (r := s.cbcDecResult) rfl (length_cbcDecrypt_le _ _ _ _ hiv)
      (length_cbcDecrypt_chain_le _ _ _ _ hiv) h
  case aesCtr => exact execAesCtr_effect h
  case ctrDerive => cases h; exact .completed _ rfl (.store .same (.inl rfl) (length_deriveCounter_le _ _ _))
  case rsaPub => exact execRsaPub_effect h
  case rsaPriv => exact execRsaPriv_effect h
  case keyClear => cases h; exact .scrubbedOnly (.inr (.inr (.inl rfl))) _
  case pkcsVerify => exact execPkcsVerify_effect h
  case pkcsSign => exact execPkcsSign_effect h
  case hdata32 v => exact port_effect (bs := le32Bytes v) rfl h
  case hdata8 v => exact port_effect (bs := [v.extractLsb' 0 8]) rfl h

/-! ### What the effects leave -/

/-- An engine's stores write window bytes and nothing else. -/
theorem State.EngineStores.frame {s u : State} (h : s.EngineStores u) : u = { s with mem := u.mem } := by
  induction h with
  | same => rfl
  | store _ _ _ ih => rw [State.setWindow, State.storeBytes, ih]

/-- HASH_FINAL stores 32 bytes in DIGEST, closes the context with what the padding left of H and HBUF, and takes a free
value; the algorithm and HLEN stay (41_digest R117). -/
theorem State.finishHash_frame (s : State) : ∃ bs : List Byte, bs.length = 32 ∧ s.finishHash =
    { s.setWindow .digest bs with
      h := s.finishHash.h, hbuf := (s.feedAll (pad s.hlen.toNat)).hbuf, hact := false, draws := s.draws + 1 } := by
  unfold State.finishHash
  simp only
  rw [State.feedAll_frame]
  exact ⟨_, length_digestWindow _ _, rfl⟩

/-- Settles O25: each effect writes only the flags that its instructions may. -/
theorem flagsAreWrittenOnlyByTheirRules : Obligations.FlagsAreWrittenOnlyByTheirRules := by
  intro s t i h
  cases exec_effect h with
  | completed c hp hu =>
    rw [hu.frame]
    simp [hp]
  | scrubbed r c hi hu hr =>
    have hresult : ¬ r = s.result → i = .dgstCmp ∨ i = .pkcsVerify := fun hne => .inr (hr.resolve_left hne)
    rw [hu.frame]
    simpa [State.completeScrubbed_eq, hi.portBytes] using ⟨hresult, fun _ => hi⟩
  | hashStarted hi ha =>
    have hinit : i = .hashInitTag ∨ i = .hashInitSha1 ∨ i = .hashInitSha256 := hi
    simpa [hi.portBytes] using fun _ => hinit
  | hashFinished ha =>
    obtain ⟨bs, -, he⟩ := s.finishHash_frame
    rw [he]
    simp [portBytes]
  | compared r => simp [portBytes]
  | absorbed hp ho =>
    rw [s.absorbAll_frame]
    simp
  | dropped hp ho => simp [hp]

end Sys2Proof.Machine
end

section
/-! PROOFS. The invariant of the machine is kept by every operation, so by every instruction, every bus access and every
step (10_state R22, R38, R44; 43_rsa R153; 60_exceptions R214). -/

namespace Sys2Proof.Machine

/-! ### The windows do not overlap -/

theorem Window.mem_all (w : Window) : w ∈ Window.all := by cases w <;> decide

theorem isStorage_of_covers {w : Window} {a : Nat} (h : w.covers a = true) : isStorage a = true :=
  List.any_eq_true.mpr ⟨w, w.mem_all, h⟩

theorem Window.disjoint {v w : Window} (h : v ≠ w) : v.base + v.span ≤ w.base ∨ w.base + w.span ≤ v.base := by
  have hall : ∀ v ∈ Window.all, ∀ w ∈ Window.all, v ≠ w →
      v.base + v.span ≤ w.base ∨ w.base + w.span ≤ v.base := by decide
  exact hall v v.mem_all w w.mem_all h

/-- No byte lies in two windows. -/
theorem Window.covers_unique {v w : Window} {a : Nat} (hv : v.covers a = true) (hw : w.covers a = true) : v = w := by
  by_contra hne
  rw [Window.covers_iff] at hv hw
  rcases Window.disjoint hne with h | h <;> omega

theorem Config.dbufBytes_le {c : Config} (h : c.wellFormed = true) : c.dbufBytes ≤ 4096 := by
  simp only [Config.wellFormed, Config.dbufOk, Bool.and_eq_true, decide_eq_true_eq] at h
  obtain ⟨⟨-, -, hle⟩, -⟩ := h
  exact hle

/-! ### States that differ only outside what the invariant speaks of -/

/-- The invariant speaks of the parameters, the stored bytes, the hash context, DVALID, DONE and PENDING alone. -/
theorem State.Inv.of_frame {s t : State} (hi : s.Inv)
    (ht : t =
      { s with
        ie := t.ie, done := t.done, err := t.err, perr := t.perr, result := t.result, errcode := t.errcode
        tag := t.tag, len := t.len, offlo := t.offlo, offhi := t.offhi, pending := t.pending, draws := t.draws
        masters := t.masters, turns := t.turns })
    (hf : t.FlagsOk) : t.Inv := by
  rw [ht]
  exact
    { config := hi.config
      store := ⟨hi.store.canonical, hi.store.dbufTail⟩
      hash := ⟨hi.hash.idle, hi.hash.algorithm, hi.hash.chaining, hi.hash.buffered⟩
      flags := hf
      secret := hi.secret }

theorem State.Inv.complete {s : State} (hi : s.Inv) (c : ErrCode) : (s.complete c).Inv := hi.of_frame rfl nofun

/-! ### Stores -/

/-- A store within a window's storage keeps the byte store canonical, with no byte of DBUF beyond DBUF_BYTES. -/
theorem State.StoreOk.storeBytes {s : State} (hs : s.StoreOk) (hd : s.cfg.dbufBytes ≤ 4096) {w : Window} {j : Nat}
    {bs : List Byte} (hl : j + bs.length ≤ w.size s.cfg) : (s.storeBytes (w.base + j) bs).StoreOk := by
  have hspan := Window.size_le_span hd w
  have hcovers (a : Nat) (h1 : w.base + j ≤ a) (h2 : a < w.base + j + bs.length) : w.covers a = true :=
    (w.covers_iff a).mpr ⟨by omega, by omega⟩
  refine ⟨Memory.store_wf hs.canonical fun a h1 h2 => isStorage_of_covers (hcovers a h1 h2), fun c hc hdbuf => ?_⟩
  rcases Memory.mem_store hc with ⟨hold, -⟩ | hnew
  · exact hs.dbufTail c hold hdbuf
  · obtain ⟨h1, h2, -⟩ := Memory.mem_cells hnew
    obtain rfl := Window.covers_unique hdbuf (hcovers c.1 h1 h2)
    change j + bs.length ≤ s.cfg.dbufBytes at hl
    change c.1 < Window.dbuf.base + s.cfg.dbufBytes
    omega

theorem State.SecretOk.storeBytes {s : State} (hs : s.SecretOk) (hd : s.cfg.dbufBytes ≤ 4096) {w : Window} {j : Nat}
    {bs : List Byte} (hl : j + bs.length ≤ w.size s.cfg) (hw : w ≠ .d) : (s.storeBytes (w.base + j) bs).SecretOk := by
  intro h0 a ha
  have hspan := Window.size_le_span hd w
  rw [State.readByte_storeBytes_outside]
  · exact hs h0 a ha
  · by_contra hin
    exact hw (Window.covers_unique ((w.covers_iff a).mpr ⟨by omega, by omega⟩) ha)

/-- A store within the storage of a window other than D keeps the invariant. -/
theorem State.Inv.storeBytes {s : State} (hi : s.Inv) {w : Window} {j : Nat} {bs : List Byte}
    (hl : j + bs.length ≤ w.size s.cfg) (hw : w ≠ .d) : (s.storeBytes (w.base + j) bs).Inv :=
  have hd := Config.dbufBytes_le hi.config
  { config := hi.config
    store := hi.store.storeBytes hd hl
    hash := ⟨hi.hash.idle, hi.hash.algorithm, hi.hash.chaining, hi.hash.buffered⟩
    flags := hi.flags
    secret := hi.secret.storeBytes hd hl hw }

theorem State.Inv.setWindow {s : State} (hi : s.Inv) {w : Window} {bs : List Byte} (hl : bs.length ≤ w.size s.cfg)
    (hw : w ≠ .d) : (s.setWindow w bs).Inv :=
  hi.storeBytes (j := 0) (by omega) hw

/-- A write to the D window keeps the invariant, since it sets DVALID (10_state R38). -/
theorem State.Inv.storeExponent {s : State} (hi : s.Inv) {j : Nat} {bs : List Byte}
    (hl : j + bs.length ≤ Window.d.size s.cfg) :
    State.Inv { s.storeBytes (Window.d.base + j) bs with dvalid := true } where
  config := hi.config
  store :=
    have hs := hi.store.storeBytes (Config.dbufBytes_le hi.config) hl
    ⟨hs.canonical, hs.dbufTail⟩
  hash := ⟨hi.hash.idle, hi.hash.algorithm, hi.hash.chaining, hi.hash.buffered⟩
  flags := hi.flags
  secret := nofun

/-- The scrub clears DVALID and leaves no byte of D (43_rsa R153). -/
theorem State.Inv.scrub {s : State} (hi : s.Inv) : s.scrub.Inv where
  config := hi.config
  store :=
    have hd := Config.dbufBytes_le hi.config
    have hl : 0 + (zeros 512).length ≤ 512 := by rw [length_zeros]
    have hn : (s.setWindow .n (zeros 512)).StoreOk := hi.store.storeBytes (w := .n) (j := 0) hd hl
    have hs : ((s.setWindow .n (zeros 512)).setWindow .d (zeros 512)).StoreOk :=
      hn.storeBytes (w := .d) (j := 0) hd hl
    ⟨hs.canonical, hs.dbufTail⟩
  hash := ⟨hi.hash.idle, hi.hash.algorithm, hi.hash.chaining, hi.hash.buffered⟩
  flags := hi.flags
  secret := by
    intro _ a ha
    have hd : 0x600 ≤ a ∧ a < 0x600 + 512 := (Window.d.covers_iff a).mp ha
    rw [State.readByte_scrub, if_pos (by omega)]

theorem State.EngineStores.inv {s u : State} (h : s.EngineStores u) (hi : s.Inv) : u.Inv := by
  induction h with
  | same => exact hi
  | store hu hw hl ih =>
    refine ih.setWindow ?_ ?_
    · rw [hu.frame]; exact hl
    · rcases hw with rfl | rfl | rfl <;> nofun

/-! ### The hash context -/

@[simp] theorem length_hashInitial (alg : HashAlg) : alg.initial.length = alg.words := by cases alg <;> rfl

theorem State.Inv.startHash {s : State} (hi : s.Inv) {alg : HashAlg} (ha : alg ≠ .none) : (s.startHash alg).Inv where
  config := hi.config
  store := ⟨hi.store.canonical, hi.store.dbufTail⟩
  hash := ⟨nofun, fun _ => ha, fun _ => length_hashInitial alg, fun _ => rfl⟩
  flags := hi.flags
  secret := hi.secret

theorem State.length_h_feed (b : Byte) (s : State) : (s.feed b).h.length = s.h.length := by
  rcases s.feed_cases b with ⟨-, h⟩ | ⟨-, h⟩ <;> simp [h]

theorem State.length_hbuf_feed (b : Byte) {s : State} (hb : s.hbuf.length < 64) :
    (s.feed b).hbuf.length = (s.hbuf.length + 1) % 64 := by
  rcases s.feed_cases b with ⟨hl, h⟩ | ⟨hl, h⟩
  · simp only [h, List.length_append, List.length_singleton]; omega
  · simp [h, hl]

theorem State.length_hbuf_feedAll (bs : List Byte) {s : State} (hb : s.hbuf.length < 64) :
    (s.feedAll bs).hbuf.length = (s.hbuf.length + bs.length) % 64 := by
  induction bs generalizing s with
  | nil => exact (Nat.mod_eq_of_lt hb).symm
  | cons b bs ih =>
    have hone := s.length_hbuf_feed b hb
    change ((s.feed b).feedAll bs).hbuf.length = _
    rw [ih (by omega), hone, List.length_cons]
    omega

/-- The padding fills the last block (41_digest R112). -/
theorem length_pad (n : Nat) : (n % 64 + (pad n).length) % 64 = 0 := by
  simp only [pad, List.cons_append, List.length_cons, List.length_append, length_zeros, length_be]
  omega

theorem State.Inv.absorb {s : State} (hi : s.Inv) (ha : s.hact = true) (b : Byte) : (s.absorb b).Inv := by
  have hbuf := hi.hash.buffered ha
  have hh := s.length_h_feed b
  have hb := s.length_hbuf_feed b (by omega)
  have hlen : (s.hlen + 1).toNat % 64 = (s.hlen.toNat + 1) % 64 := by
    rw [BitVec.toNat_add]
    simp
  have hnext : (s.feed b).hbuf.length = (s.hlen + 1).toNat % 64 := by omega
  rw [State.absorb_frame]
  exact
    { config := hi.config
      store := ⟨hi.store.canonical, hi.store.dbufTail⟩
      hash := ⟨fun h0 => absurd (ha.symm.trans h0) nofun, hi.hash.algorithm, fun _ => hh.trans (hi.hash.chaining ha),
        fun _ => hnext⟩
      flags := hi.flags
      secret := hi.secret }

theorem State.Inv.absorbAll {s : State} (hi : s.Inv) (ha : s.hact = true) (bs : List Byte) : (s.absorbAll bs).Inv := by
  induction bs generalizing s with
  | nil => exact hi
  | cons b bs ih =>
    have hact : (s.absorb b).hact = true := by rw [State.absorb_frame]; exact ha
    exact ih (hi.absorb ha b) hact

/-- The padding leaves no byte in HBUF: it ends on a block boundary. -/
theorem State.feedAll_pad_hbuf {s : State} (hi : s.Inv) (ha : s.hact = true) :
    (s.feedAll (pad s.hlen.toNat)).hbuf = [] := by
  have hbuf := hi.hash.buffered ha
  refine List.eq_nil_of_length_eq_zero ?_
  rw [State.length_hbuf_feedAll _ (by omega), hbuf]
  exact length_pad _

theorem State.Inv.finishHash {s : State} (hi : s.Inv) (ha : s.hact = true) : s.finishHash.Inv := by
  obtain ⟨bs, hl, he⟩ := s.finishHash_frame
  have hd : (s.setWindow .digest bs).Inv := hi.setWindow hl.le nofun
  rw [he]
  exact
    { config := hi.config
      store := ⟨hd.store.canonical, hd.store.dbufTail⟩
      hash := ⟨fun _ => State.feedAll_pad_hbuf hi ha, nofun, nofun, nofun⟩
      flags := hi.flags
      secret := hd.secret }

/-! ### Instructions -/

theorem State.Inv.dropWrite {s : State} (hi : s.Inv) : s.dropWrite.Inv :=
  hi.of_frame rfl hi.flags

theorem State.Inv.setResult {s : State} (hi : s.Inv) (r : Bool) : State.Inv { s with result := r } :=
  hi.of_frame rfl hi.flags

theorem State.hact_of_portOpen {s : State} (h : s.portOpen = true) : s.hact = true :=
  (Bool.and_eq_true_iff.mp h).2

theorem Effect.inv {s t : State} {i : Instr} (h : Effect s i t) (hi : s.Inv) : t.Inv := by
  cases h with
  | completed c _ hu => exact (hu.inv hi).complete c
  | scrubbed r c _ hu _ => exact ((hu.inv hi).setResult r).scrub.complete c
  | hashStarted _ ha => exact (hi.startHash ha).complete .none
  | hashFinished ha => exact (hi.finishHash ha).complete .none
  | compared r => exact (hi.setResult r).complete .none
  | absorbed _ ho => exact hi.absorbAll (State.hact_of_portOpen ho) _
  | dropped => exact hi.dropWrite

/-- No instruction breaks the invariant, whatever its operands. -/
theorem exec_inv {s t : State} {i : Instr} (hi : s.Inv) (h : exec i s = .next t) : t.Inv := (exec_effect h).inv hi

/-! ### Bus accesses -/

theorem State.Inv.busRead {s : State} (hi : s.Inv) (off : Nat) : (s.busRead off).2.Inv := by
  rcases s.busRead_snd off with h | ⟨-, h⟩ <;> rw [h]
  · exact hi
  · exact hi.of_frame rfl hi.flags

theorem State.Inv.writeWindow {s : State} (hi : s.Inv) {w : Window} {j : Nat} (hj : j + 4 ≤ w.size s.cfg) (v : Word) :
    (s.writeWindow w j v).Inv := by
  cases w
  case d => exact hi.storeExponent hj
  all_goals exact hi.storeBytes hj nofun

theorem runPort_inv {s t : State} {off : Nat} {v : Word} (hi : s.Inv) (h : runPort off v s = .next t) : t.Inv := by
  unfold runPort at h
  split at h
  · exact exec_inv hi h
  · cases h; exact hi

/-- A write that BUSY drops or performs keeps the invariant if the performed write does. -/
theorem State.Inv.dropOr {s t : State} (hi : s.Inv) (off : Nat) (ht : t.Inv) :
    (if s.dropsWrite off then s.dropWrite else t).Inv := by
  split
  · exact hi.dropWrite
  · exact ht

theorem busWrite_inv {s t : State} {off : Nat} {v : Word} (hi : s.Inv) (h : busWrite off v s = .next t) : t.Inv := by
  unfold busWrite at h
  cases htarget : target s.cfg off <;> simp only [htarget] at h
  case hdata32 => exact runPort_inv hi h
  case hdata8 => exact runPort_inv hi h
  all_goals cases h
  case ctrl => exact hi.of_frame rfl hi.flags
  case status =>
    refine hi.of_frame rfl fun hb => ?_
    rw [State.writeStatus_done, hi.flags hb, Bool.false_and]
  case cmd => exact hi.dropOr off (hi.of_frame rfl fun _ => rfl)
  case window w j => exact hi.dropOr off (hi.writeWindow (target_eq_window htarget).2 v)
  case id | reginfo | hlenlo | hlenhi | reserved => exact hi.dropOr off hi
  all_goals exact hi.dropOr off (hi.of_frame rfl hi.flags)

theorem State.Inv.setProg {s : State} (hi : s.Inv) (m : Nat) (p : List HostStep) : (s.setProg m p).Inv :=
  hi.of_frame rfl hi.flags

theorem State.Inv.deliver {s : State} (hi : s.Inv) (m : Nat) (v : Word) : (s.deliver m v).Inv :=
  hi.of_frame rfl hi.flags

theorem performAccess_inv {s t : State} {m : Nat} {a : Access} (hi : s.Inv) (h : performAccess m a s = .next t) :
    t.Inv := by
  rcases performAccess_cases m a s with ⟨-, he⟩ | ⟨off, -, -, he⟩ | ⟨off, v, -, -, he⟩ <;> rw [he] at h
  · cases h
  · cases h; exact (hi.busRead off).deliver m _
  · exact busWrite_inv hi h

theorem performPoll_inv {s t : State} {m addr : Nat} {mask val : Word} {rest : List HostStep} (hi : s.Inv)
    (h : performPoll m addr mask val rest s = .next t) : t.Inv := by
  unfold performPoll at h
  split at h
  · cases h
  · split at h <;> cases h
    · exact (hi.busRead _).setProg m rest
    · exact hi.busRead _

/-! ### The agents' steps -/

theorem hostTurn_inv {s t : State} {m : Nat} (hi : s.Inv) (h : hostTurn m s = .next t) : t.Inv := by
  unfold hostTurn at h
  split at h
  · cases h; exact hi
  · split at h
    · cases h; exact hi
    · exact performAccess_inv (hi.setProg m _) h
    · exact performPoll_inv hi h

theorem engineTurn_inv {s t : State} (hi : s.Inv) (h : engineTurn s = .next t) : t.Inv := by
  unfold engineTurn at h
  split at h
  · cases h; exact hi
  · split at h
    · exact exec_inv hi h
    · cases h; exact hi.complete .illegalCmd

/-- The bytes of D have a stated reset value, so a reset leaves none of a private exponent (10_state R38). -/
theorem resetValue_of_covers_d {a : Nat} (h : Window.d.covers a = true) : Memory.resetValue a = some 0 := by
  have hfree : freeAtReset a = false := by
    rw [freeAtReset, Bool.or_eq_false_iff, Bool.eq_false_iff, Bool.eq_false_iff]
    exact ⟨fun hx => absurd (Window.covers_unique h hx) nofun, fun hx => absurd (Window.covers_unique h hx) nofun⟩
  rw [Memory.resetValue, hfree]
  rfl

theorem State.Inv.resetBlock {s : State} (hi : s.Inv) : s.resetBlock.Inv where
  config := hi.config
  store := ⟨Memory.wf_reset, nofun⟩
  hash := ⟨fun _ => rfl, nofun, nofun, nofun⟩
  flags := nofun
  secret := by
    intro _ a ha
    simp only [State.readByte, State.resetBlock_mem, Memory.lookup, resetValue_of_covers_d ha]

theorem takeTurn_inv {s u : State} {t : Turn} (hi : s.Inv) (h : takeTurn t s = .next u) : u.Inv := by
  cases t with
  | host m => exact hostTurn_inv hi h
  | engine => exact engineTurn_inv hi h
  | reset => cases h; exact hi.resetBlock

/-- Settles O53: whichever agent moves, its turn keeps the invariant, and the schedule is no part of it. -/
theorem stepKeepsTheInvariant : Obligations.StepKeepsTheInvariant := by
  intro s t hi h
  rcases step_cases s with ⟨x, ts, -, he⟩ | ⟨-, x, -, he⟩ | ⟨-, -, he⟩ <;> rw [he] at h
  · have hs : State.Inv { s with turns := ts } := hi.of_frame rfl hi.flags
    exact takeTurn_inv hs h
  · exact takeTurn_inv hi h
  · cases h; exact hi

end Sys2Proof.Machine
end

section
/-! PROOFS. What a host's turn can do (20_memory R55 to R65; 60_exceptions R209, R210): which accesses the bus takes, what
a write and a turn change while a command is in flight, the four byte lanes of a window word, and what stops a step. -/

namespace Sys2Proof.Machine

/-! ### Which accesses the bus takes (20_memory R59) -/

theorem Access.exists_offset_iff (c : Config) (a : Access) :
    (∃ off, a.offset c = some off) ↔ ∃ off, a.shape = .word ∧ a.addr = c.base + off ∧ off % 4 = 0 ∧ off ≤ 0x1FFC := by
  refine exists_congr fun off => ?_
  have hrange : off < 0x2000 ∧ off % 4 = 0 ↔ off % 4 = 0 ∧ off ≤ 0x1FFC := by omega
  rw [Access.offset_eq_some_iff, hrange]

/-- An access with a block offset is never refused: a read and a write both answer a next state. -/
theorem performAccess_next {a : Access} {s : State} {off : Nat} (h : a.offset s.cfg = some off) (m : Nat) :
    ∃ t, performAccess m a s = .next t := by
  rcases performAccess_cases m a s with ⟨hnone, -⟩ | ⟨o, -, -, he⟩ | ⟨o, v, -, -, he⟩
  · exact absurd (h.symm.trans hnone) nofun
  · exact ⟨_, he⟩
  · rw [he]; exact busWrite_next o v s

theorem performAccess_of_refused {a : Access} {s : State} (h : a.offset s.cfg = none) (m : Nat) :
    performAccess m a s = .fault (.busError a) := by
  rw [performAccess, h]

/-- Settles O12: the accesses it calls legal are those with a block offset. -/
theorem onlyAlignedWordAccessesAreLegal : Obligations.OnlyAlignedWordAccessesAreLegal := by
  intro s m a
  rw [← Access.exists_offset_iff]
  refine ⟨fun ⟨off, hoff⟩ => performAccess_next hoff m, fun hillegal => performAccess_of_refused ?_ m⟩
  exact Option.eq_none_iff_forall_ne_some.mpr fun off hoff => hillegal ⟨off, hoff⟩

/-! ### Writes while a command is in flight (60_exceptions R209) -/

/-- What the search of the windows can find. -/
theorem windowTarget_cases (c : Config) (off : Nat) (ws : List Window) :
    windowTarget c off ws = .reserved ∨ ∃ w j, windowTarget c off ws = .window w j := by
  induction ws with
  | nil => exact .inl rfl
  | cons w ws ih =>
    rw [windowTarget]
    split_ifs
    · exact .inr ⟨w, _, rfl⟩
    · exact .inl rfl
    · exact ih

/-- CTRL and STATUS, which BUSY does not guard, and the two hash data ports are each at one offset (10_state R21). -/
theorem target_register_offset (c : Config) (off : Nat) :
    (target c off = .ctrl → off = 0x004) ∧ (target c off = .status → off = 0x008) ∧
      (target c off = .hdata32 → off = 0x028) ∧ (target c off = .hdata8 → off = 0x02C) := by
  unfold target
  rcases windowTarget_cases c off Window.all with h | ⟨w, j, h⟩ <;>
    simp only [h, ite_eq_iff, reduceCtorEq, and_false, and_true, false_or, or_false] <;> tauto

theorem State.portOpen_of_busy {s : State} (h : s.busy = true) : s.portOpen = false := by
  rw [State.portOpen, h]; rfl

theorem runPort_of_busy {s : State} (h : s.busy = true) {off : Nat} (hoff : off = 0x028 ∨ off = 0x02C) (v : Word) :
    runPort off v s = .next s.dropWrite := by
  have hclosed : ¬ s.portOpen = true := Bool.eq_false_iff.mp (State.portOpen_of_busy h)
  rcases hoff with rfl | rfl
  · exact if_neg hclosed
  · exact if_neg hclosed

/-- While BUSY every write but one to CTRL or STATUS is dropped. -/
theorem busWrite_of_busy {s : State} (h : s.busy = true) {off : Nat} (h4 : off ≠ 0x004) (h8 : off ≠ 0x008) (v : Word) :
    busWrite off v s = .next s.dropWrite := by
  have hdrop : s.dropsWrite off = true := (State.dropsWrite_eq_busy h4 h8 s).trans h
  obtain ⟨hctrl, hstatus, hport32, hport8⟩ := target_register_offset s.cfg off
  unfold busWrite
  cases htarget : target s.cfg off
  case ctrl => exact absurd (hctrl htarget) h4
  case status => exact absurd (hstatus htarget) h8
  case hdata32 => exact runPort_of_busy h (.inl (hport32 htarget)) v
  case hdata8 => exact runPort_of_busy h (.inr (hport8 htarget)) v
  all_goals exact congrArg Host.Outcome.next (if_pos hdrop)

/-- t is s but for the interrupt enable, the flags that a host may clear or set, and the model's own draws and masters:
the operands, the windows, the hash context and the command in flight are as they were (20_memory R65). -/
def State.SameOperands (s t : State) : Prop :=
  t = { s with ie := t.ie, done := t.done, err := t.err, perr := t.perr, draws := t.draws, masters := t.masters }

theorem busWrite_sameOperands {s t : State} {off : Nat} {v : Word} (hb : s.busy = true)
    (h : busWrite off v s = .next t) : s.SameOperands t := by
  by_cases h4 : off = 0x004
  · subst h4; cases h; exact rfl
  by_cases h8 : off = 0x008
  · subst h8; cases h; exact rfl
  · rw [busWrite_of_busy hb h4 h8] at h; cases h; exact rfl

theorem State.busRead_sameOperands (off : Nat) (s : State) : s.SameOperands (s.busRead off).2 := by
  rcases s.busRead_snd off with h | ⟨-, h⟩ <;> rw [h] <;> exact rfl

/-- A master whose program moves on, or that a word is returned to, touches no operand. -/
theorem State.SameOperands.withMasters {s t : State} (h : s.SameOperands t) (ms : List Master) :
    s.SameOperands { t with masters := ms } := by
  rw [h]; exact rfl

theorem performAccess_sameOperands {s t : State} {m : Nat} {a : Access} (hb : s.busy = true)
    (h : performAccess m a s = .next t) : s.SameOperands t := by
  rcases performAccess_cases m a s with ⟨-, he⟩ | ⟨off, -, -, he⟩ | ⟨off, v, -, -, he⟩ <;> rw [he] at h
  · cases h
  · cases h; exact (s.busRead_sameOperands off).withMasters _
  · exact busWrite_sameOperands hb h

theorem performPoll_sameOperands {s t : State} {m addr : Nat} {mask val : Word} {rest : List HostStep}
    (h : performPoll m addr mask val rest s = .next t) : s.SameOperands t := by
  unfold performPoll at h
  split at h
  · cases h
  · split at h <;> cases h
    · exact (s.busRead_sameOperands _).withMasters _
    · exact s.busRead_sameOperands _

theorem hostTurn_sameOperands {s t : State} {m : Nat} (hb : s.busy = true) (h : hostTurn m s = .next t) :
    s.SameOperands t := by
  unfold hostTurn at h
  split at h
  · cases h; exact rfl
  · split at h
    · cases h; exact rfl
    case h_2 a rest _ => exact performAccess_sameOperands (s := s.setProg m rest) hb h
    case h_3 => exact performPoll_sameOperands h

/-- Settles O21: a host's turn is a read, or a write that BUSY drops or that reaches CTRL or STATUS alone. -/
theorem busyFreezesTheOperands : Obligations.BusyFreezesTheOperands :=
  fun _ _ _ hb h => hostTurn_sameOperands hb h

/-! ### What stops a step (60_exceptions R200, R210) -/

/-- A POLL whose offset is legal reads it; any other is refused (20_memory R59). -/
theorem performPoll_cases (m addr : Nat) (mask val : Word) (rest : List HostStep) (s : State) :
    (∃ t, performPoll m addr mask val rest s = .next t) ∨
    (∃ a, a.offset s.cfg = none ∧ performPoll m addr mask val rest s = .fault (.busError a)) := by
  unfold performPoll
  split
  case h_1 hnone => exact .inr ⟨_, hnone, rfl⟩
  case h_2 => split <;> exact .inl ⟨_, rfl⟩

/-- A master's turn answers a next state or stops at an access that the bus refuses. -/
theorem hostTurn_cases (m : Nat) (s : State) :
    (∃ t, hostTurn m s = .next t) ∨
    (∃ a, a.offset s.cfg = none ∧ hostTurn m s = .fault (.busError a)) := by
  unfold hostTurn
  split
  · exact .inl ⟨_, rfl⟩
  · split
    · exact .inl ⟨_, rfl⟩
    case h_2 a rest _ =>
      cases ha : a.offset s.cfg with
      | none => exact .inr ⟨a, ha, performAccess_of_refused (s := s.setProg m rest) ha m⟩
      | some off => exact .inl (performAccess_next (s := s.setProg m rest) ha m)
    case h_3 => exact performPoll_cases m _ _ _ _ s

/-- The engine's turn always answers a next state: a command has a meaning, an illegal word completes with its code. -/
theorem engineTurn_next (s : State) : ∃ t, engineTurn s = .next t := by
  unfold engineTurn
  split
  · exact ⟨_, rfl⟩
  · split
    · exact exec_next _ s
    · exact ⟨_, rfl⟩

/-- Only a master's turn stops, and only at an access that the bus refuses. -/
theorem takeTurn_cases (t : Turn) (s : State) :
    (∃ u, takeTurn t s = .next u) ∨
    (∃ m a, t = .host m ∧ a.offset s.cfg = none ∧ takeTurn t s = .fault (.busError a)) := by
  cases t with
  | host m =>
    rcases hostTurn_cases m s with h | ⟨a, ha, h⟩
    · exact .inl h
    · exact .inr ⟨m, a, rfl, ha, h⟩
  | engine => exact .inl (engineTurn_next s)
  | reset => exact .inl ⟨_, rfl⟩

/-- A step answers a next state, or it is a master's step and stops at an access that the bus refuses. -/
theorem step_next_or_busError (s : State) :
    (∃ t, step s = .next t) ∨
    (∃ a, a.offset s.cfg = none ∧ step s = .fault (.busError a) ∧
      ∀ t ts, s.turns = t :: ts → ∃ m, t = .host m) := by
  rcases step_cases s with ⟨t, ts, hturns, he⟩ | ⟨hturns, t, -, he⟩ | ⟨-, -, he⟩
  · rw [he, hturns]
    rcases takeTurn_cases t { s with turns := ts } with h | ⟨m, a, ht, ha, h⟩
    · exact .inl h
    · refine .inr ⟨a, ha, h, fun t' _ hcons => ⟨m, ?_⟩⟩
      obtain ⟨rfl, -⟩ := List.cons.inj hcons
      exact ht
  · rw [he, hturns]
    rcases takeTurn_cases t s with h | ⟨-, a, -, ha, h⟩
    · exact .inl h
    · exact .inr ⟨a, ha, h, nofun⟩
  · exact .inl ⟨s, he⟩

/-- Settles O55: of the two ways a step can end, one is a next state and the other the refused access it names. -/
theorem onlyRefusedAccessesStopTheMachine : Obligations.OnlyRefusedAccessesStopTheMachine := by
  intro s
  rcases step_next_or_busError s with ⟨t, h⟩ | ⟨a, ha, h, hhost⟩ <;> rw [h]
  · exact ⟨nofun, nofun⟩
  · refine ⟨nofun, fun f hf => ?_⟩
    cases hf
    exact ⟨⟨a, rfl, ha⟩, hhost⟩

/-! ### The lanes of a window word (20_memory R56) -/

/-- The map leads to the first window of the list that covers an offset; the windows do not overlap. -/
theorem windowTarget_of_covers {c : Config} {off : Nat} {w : Window} {ws : List Window} (hw : w ∈ ws)
    (hc : w.covers off = true) (hs : off - w.base + 4 ≤ w.size c) :
    windowTarget c off ws = .window w (off - w.base) := by
  induction ws with
  | nil => cases hw
  | cons v ws ih =>
    rw [windowTarget]
    by_cases hv : v.covers off = true
    · obtain rfl := Window.covers_unique hv hc
      rw [if_pos hv, if_pos hs]
    · rw [if_neg hv]
      rcases List.mem_cons.mp hw with rfl | htail
      · exact absurd hc hv
      · exact ih htail

/-- Every window lies past the registers. -/
theorem Window.registers_lt_base (w : Window) : 0x038 ≤ w.base := by cases w <;> decide

/-- The map leads to each word inside a window's storage. -/
theorem target_window {c : Config} {w : Window} {j : Nat} (hd : c.dbufBytes ≤ 4096) (hj : j + 4 ≤ w.size c) :
    target c (w.base + j) = .window w j := by
  have hspan := Window.size_le_span hd w
  have hbase := w.registers_lt_base
  have hindex : w.base + j - w.base = j := Nat.add_sub_cancel_left _ _
  rw [target_eq_windowTarget c (by omega),
    windowTarget_of_covers w.mem_all ((w.covers_iff _).mpr (by omega)) (by omega), hindex]

theorem State.busRead_window {s : State} {w : Window} {j : Nat} (hd : s.cfg.dbufBytes ≤ 4096)
    (hj : j + 4 ≤ w.size s.cfg) : s.busRead (w.base + j) = s.readWindow w j := by
  rw [State.busRead, target_window hd hj]

theorem busWrite_window_of_idle {s : State} {w : Window} {j : Nat} (hb : s.busy = false)
    (hd : s.cfg.dbufBytes ≤ 4096) (hj : j + 4 ≤ w.size s.cfg) (v : Word) :
    busWrite (w.base + j) v s = .next (s.writeWindow w j v) := by
  simp only [busWrite, target_window hd hj, State.dropsWrite_of_idle hb, Bool.false_eq_true, if_false]

theorem State.readWindow_secret {w : Window} (hw : w = .key ∨ w = .d) (j : Nat) (s : State) :
    s.readWindow w j = (0, s) := by
  rcases hw with rfl | rfl <;> rfl

/-- REF in any state, and every other window but the secrets with no command in flight, reads as its four bytes. -/
theorem State.readWindow_shown {s : State} {w : Window} (hw : w = .ref ∨ (s.busy = false ∧ w ≠ .key ∧ w ≠ .d))
    (j : Nat) : s.readWindow w j = (le32 (s.readBytes (w.base + j) 4), s) := by
  rcases s.readWindow_cases w j with ⟨hsecret, -⟩ | ⟨-, h⟩ | ⟨-, -, href, h⟩
  · rcases hsecret with rfl | rfl <;> simp at hw
  · exact h
  · obtain ⟨hidle, -, -⟩ := hw.resolve_left href
    rw [h, State.engineRead_of_idle hidle]

theorem toNat_append_eq_add {n m : Nat} (x : BitVec n) (y : BitVec m) :
    (x ++ y).toNat = x.toNat * 2 ^ m + y.toNat := by
  rw [BitVec.toNat_append, ← Nat.shiftLeft_add_eq_or_of_lt y.isLt, Nat.shiftLeft_eq]

/-- A little-endian word is worth its bytes, each in its lane. -/
theorem toNat_le32 (s : List Byte) : (le32 s).toNat =
    (byteAt s 0).toNat + 2 ^ 8 * (byteAt s 1).toNat + 2 ^ 16 * (byteAt s 2).toNat + 2 ^ 24 * (byteAt s 3).toNat := by
  rw [le32, toNat_append_eq_add, toNat_append_eq_add, toNat_append_eq_add]
  omega

theorem State.byteAt_readBytes {n i : Nat} (hi : i < n) (a : Nat) (s : State) :
    byteAt (s.readBytes a n) i = s.readByte (a + i) := by
  simp [byteAt, State.readBytes, gen, hi]

/-- A window write stores its four lanes, and sets DVALID for D (10_state R38). -/
theorem State.writeWindow_eq (w : Window) (j : Nat) (v : Word) (s : State) :
    s.writeWindow w j v =
      { s.storeBytes (w.base + j) (le32Bytes v) with dvalid := if w = .d then true else s.dvalid } := by
  cases w <;> rfl

theorem State.readByte_writeWindow (w : Window) (j : Nat) (v : Word) (s : State) (x : Nat) :
    (s.writeWindow w j v).readByte x = (s.storeBytes (w.base + j) (le32Bytes v)).readByte x := by
  rw [State.writeWindow_eq]
  exact State.readByte_congr rfl rfl x

/-- Lane i of a window write. -/
theorem State.readByte_writeWindow_lane (w : Window) (j : Nat) (v : Word) (s : State) {i : Nat} (hi : i < 4) :
    (s.writeWindow w j v).readByte (w.base + j + i) = byteAt (le32Bytes v) i := by
  rw [State.readByte_writeWindow, State.readByte_storeBytes, length_le32Bytes, if_pos (by omega),
    Nat.add_sub_cancel_left, byteAt]

/-- Settles O17: the map leads to the window word, whose read and write go by lanes. -/
theorem windowWordsUseLittleEndianLanes : Obligations.WindowWordsUseLittleEndianLanes := by
  intro s w j v hd _ hj
  refine ⟨fun hw => ?_, fun hw => ?_, fun hb => ?_, fun hb => ?_⟩
  · rw [State.busRead_window hd hj, State.readWindow_secret hw]
  · rw [State.busRead_window hd hj, State.readWindow_shown hw]
    refine ⟨rfl, (toNat_le32 _).trans ?_⟩
    simp [State.byteAt_readBytes]
  · have hlane (i : Nat) (hi : i < 4) := s.readByte_writeWindow_lane w j v hi
    refine ⟨s.writeWindow w j v, busWrite_window_of_idle hb hd hj v, hlane 0 (by omega), hlane 1 (by omega),
      hlane 2 (by omega), hlane 3 (by omega), fun x hx => ?_, ?_⟩
    · rw [State.readByte_writeWindow, State.readByte_storeBytes_outside _ _ _ _ hx]
    · rw [State.writeWindow_eq]; rfl
  · have hbase := w.registers_lt_base
    exact busWrite_of_busy hb (by omega) (by omega) v

end Sys2Proof.Machine
end

section
/-! PROOFS. The decoder and the encoder (30_encoding R80 to R87): each field of a command word, the converse of every
decoding function, and the statements about legal words. -/

namespace Sys2Proof.Machine

/-! ### Fields and their decoders -/

theorem fields_append (w : Word) : rsvField w ++ selField w ++ opField w = w :=
  calc rsvField w ++ selField w ++ opField w
    _ = w.extractLsb' 8 24 ++ w.extractLsb' 0 8 :=
      congrArg (· ++ _) (BitVec.extractLsb'_append_extractLsb'_eq_extractLsb' rfl)
    _ = w.extractLsb' 0 32 := BitVec.extractLsb'_append_extractLsb'_eq_extractLsb' rfl
    _ = w := BitVec.extractLsb'_eq_self

theorem encode_of_decodeHashInit {sel : BitVec 2} {i : Instr} (h : decodeHashInit sel = .ok i) :
    encode i = { off := cmdOffset, data := 0#22 ++ sel ++ 0x01#8 } := by
  unfold decodeHashInit at h
  iterate 3
    rcases ite_eq_iff.mp h with ⟨rfl, hi⟩ | ⟨-, h⟩
    · cases hi; rfl
  cases h

theorem encode_of_decodePlainOp {op : BitVec 8} {i : Instr} (h : decodePlainOp op = some i) :
    encode i = { off := cmdOffset, data := 0#22 ++ 0#2 ++ op } := by
  unfold decodePlainOp at h
  iterate 12
    rcases ite_eq_iff.mp h with ⟨rfl, hi⟩ | ⟨-, h⟩
    · cases hi; rfl
  cases h

/-- A legal command word has no reserved bit, and is a HASH_INIT or an operation without a selector. -/
theorem decodeCmd_cases {w : Word} {i : Instr} (h : decodeCmd w = .ok i) :
    rsvField w = 0 ∧ ((opField w = 0x01 ∧ decodeHashInit (selField w) = .ok i) ∨
      (selField w = 0 ∧ decodePlainOp (opField w) = some i)) := by
  unfold decodeCmd at h
  rcases ite_eq_iff.mp h with ⟨-, h⟩ | ⟨hrsv, h⟩
  · cases h
  refine ⟨not_not.mp hrsv, (ite_eq_iff.mp h).imp_right fun ⟨_, h⟩ => ?_⟩
  cases hplain : decodePlainOp (opField w) with
  | none => rw [hplain] at h; cases h
  | some j =>
    rw [hplain] at h
    rcases ite_eq_iff.mp h with ⟨hsel, h⟩ | ⟨-, h⟩ <;> cases h
    exact ⟨hsel, rfl⟩

theorem encode_of_decodeCmd {w : Word} {i : Instr} (h : decodeCmd w = .ok i) :
    encode i = { off := cmdOffset, data := w } := by
  rw [← fields_append w]
  obtain ⟨hrsv, ⟨hop, hinit⟩ | ⟨hsel, hplain⟩⟩ := decodeCmd_cases h
  · rw [encode_of_decodeHashInit hinit, hrsv, hop]; rfl
  · rw [encode_of_decodePlainOp hplain, hrsv, hsel]; rfl

/-! ### Decoding and encoding are inverse -/

theorem encode_of_decode {t : BusWord} {i : Instr} (h : decode t = .ok i) : encode i = t := by
  obtain ⟨off, data⟩ := t
  simp only [decode] at h
  split_ifs at h with hcmd hport32 hport8
  · rw [encode_of_decodeCmd h, hcmd]
  · cases h; rw [hport32]; rfl
  · cases h; rw [hport8]; rfl

@[simp] theorem decode_encode (i : Instr) : decode (encode i) = .ok i := by cases i <;> rfl

theorem decode_eq_ok_iff (t : BusWord) (i : Instr) : decode t = .ok i ↔ encode i = t :=
  ⟨encode_of_decode, fun h => h ▸ decode_encode i⟩

@[simp] theorem wellFormed_eq_true (i : Instr) : i.wellFormed = true := by cases i <;> rfl

/-- Settles O1: every instruction is well formed, and the encoder inverts the decoder on both sides. -/
theorem decodeAndEncodeAgree : Obligations.DecodeAndEncodeAgree := by
  intro t i
  rw [decode_eq_ok_iff, wellFormed_eq_true, eq_self, true_and]

/-! ### The table of command words (30_encoding R81) -/

/-- The 15 commands, in the order of the table. -/
def commands : List Instr :=
  [.nop, .hashInitTag, .hashInitSha1, .hashInitSha256, .hashFinal, .dgstCmp, .aesCbcEnc, .aesCbcDec, .aesCtr,
    .ctrDerive, .rsaPub, .rsaPriv, .keyClear, .pkcsVerify, .pkcsSign]

/-- The commands are the instructions that are written to CMD. -/
theorem mem_commands_iff (i : Instr) : i ∈ commands ↔ encodeOffset i = cmdOffset := by
  cases i <;> simp [commands, encodeOffset, cmdOffset, hdata32Offset, hdata8Offset]

/-- Settles O2: the table pairs each command with the word the encoder gives it. -/
theorem legalCommandWordsAreTheFifteen : Obligations.LegalCommandWordsAreTheFifteen := by
  intro w i
  change _ ↔ (w, i) ∈ commands.map fun c => (encodeData c, c)
  rw [decode_eq_ok_iff, encode, BusWord.mk.injEq]
  change encodeOffset i = cmdOffset ∧ _ ↔ _
  simp [mem_commands_iff, and_comm]

/-- Settles O3: each word is the encoding of its instruction. -/
theorem writtenOutWordsDecode : Obligations.WrittenOutWordsDecode :=
  ⟨decode_encode .hashInitSha256, decode_encode .aesCtr, decode_encode .rsaPriv, decode_encode .pkcsSign,
    decode_encode (.hdata8 0x00000161)⟩

end Sys2Proof.Machine
end

section
/-! PROOFS. The host program's primitive statements (30_encoding R86): what a step at a master's turn does for each of
WR, RD and POLL, and the run of reads that a DUMP stands for. -/

namespace Sys2Proof.Machine

/-! ### One master of the list -/

theorem masters_modify {l : List Master} {m : Nat} {x : Master} (h : l[m]? = some x) (f : Master → Master) :
    l.modify m f = l.set m (f x) := by
  rw [List.modify_eq_set_getElem?, h]; rfl

theorem masters_getElem?_set {l : List Master} {m : Nat} {x : Master} (h : l[m]? = some x) (y : Master) :
    (l.set m y)[m]? = some y :=
  List.getElem?_set_self (List.getElem?_eq_some_iff.mp h).1

theorem masters_set_self {l : List Master} {m : Nat} {x : Master} (h : l[m]? = some x) : l.set m x = l := by
  obtain ⟨hm, rfl⟩ := List.getElem?_eq_some_iff.mp h
  exact List.set_getElem_self hm

/-! ### A master's turn -/

section
variable {s : State} {m : Nat} {ts : List Turn} {x : Master} {rest : List HostStep}

theorem step_of_bus {a : Access} (hturns : s.turns = .host m :: ts) (hx : s.masters[m]? = some x)
    (hprog : x.prog = .bus a :: rest) : step s = performAccess m a ({ s with turns := ts }.setProg m rest) := by
  simp only [step, hturns, takeTurn, hostTurn, hx, hprog]

theorem step_of_poll {addr : Nat} {mask val : Word} (hturns : s.turns = .host m :: ts)
    (hx : s.masters[m]? = some x) (hprog : x.prog = .poll addr mask val :: rest) :
    step s = performPoll m addr mask val rest { s with turns := ts } := by
  simp only [step, hturns, takeTurn, hostTurn, hx, hprog]

end

/-- The offset of a 32-bit access at an address from BASE on (20_memory R59). -/
theorem Access.offset_word (c : Config) (off : Nat) (op : BusOp) :
    Access.offset c { addr := c.base + off, shape := .word, op := op } =
      if off % 4 = 0 ∧ off < 0x2000 then some off else none := by
  split_ifs with h
  · exact (Access.offset_eq_some_iff c _ off).mpr ⟨rfl, rfl, h.2, h.1⟩
  · refine Option.eq_none_iff_forall_ne_some.mpr fun o ho => h ?_
    obtain ⟨-, haddr, hlt, hmod⟩ := (Access.offset_eq_some_iff c _ o).mp ho
    obtain rfl := Nat.add_left_cancel haddr
    exact ⟨hmod, hlt⟩

/-! ### Writes -/

theorem performAccess_of_write {a : Access} {s : State} {off : Nat} {v : Word} (h : a.offset s.cfg = some off)
    (hop : a.op = .write v) (m : Nat) : performAccess m a s = busWrite off v s := by
  simp only [performAccess, h, hop]

theorem busWrite_port {off : Nat} (h : off = 0x028 ∨ off = 0x02C) (v : Word) (s : State) :
    busWrite off v s = runPort off v s := by
  rcases h with rfl | rfl <;> rfl

theorem runPort_of_decode {off : Nat} {v : Word} {i : Instr} (h : decode { off := off, data := v } = .ok i)
    (s : State) : runPort off v s = exec i s := by
  rw [runPort, h]

/-- Settles O6: the statement's access is legal, so it is a bus write, and at a port offset what the decoder reads. -/
theorem stepRunsTheWriteStatement : Obligations.StepRunsTheWriteStatement := by
  intro s m ts x a rest off v hturns hx hprog hoff hop
  have hwrite : step s = busWrite off v ({ s with turns := ts }.setProg m rest) := by
    rw [step_of_bus hturns hx hprog]
    exact performAccess_of_write (s := State.setProg m rest { s with turns := ts }) hoff hop m
  refine ⟨hwrite, fun i hport hdecode => ?_⟩
  rw [hwrite, busWrite_port hport, runPort_of_decode hdecode]

/-! ### Reads -/

/-- A read leaves everything but the count of free values. -/
theorem State.busRead_frame (off : Nat) (s : State) :
    (s.busRead off).2 = { s with draws := (s.busRead off).2.draws } := by
  rcases s.busRead_snd off with h | ⟨-, h⟩ <;> rw [h]

/-- A read does not look at the schedule or the masters, and leaves all but the count of free values. -/
theorem State.busRead_with (off : Nat) (s : State) (ts : List Turn) (ms : List Master) :
    State.busRead off { s with turns := ts, masters := ms } =
      ((s.busRead off).1, { s with draws := (s.busRead off).2.draws, turns := ts, masters := ms }) := by
  rw [State.busRead_schedule, State.busRead_frame]

theorem State.busRead_snd_of_idle {s : State} (h : s.busy = false) (off : Nat) : (s.busRead off).2 = s :=
  (readsHaveNoSideEffect s off).1 h

section
variable {s : State} {m : Nat} {ts : List Turn} {x : Master} {rest : List HostStep} {off : Nat}

/-- A step that performs an RD. -/
theorem step_rd (hturns : s.turns = .host m :: ts) (hx : s.masters[m]? = some x)
    (hprog : x.prog = rd s.cfg.base off :: rest) (hoff : off % 4 = 0 ∧ off < 0x2000) :
    step s = .next { s with
      turns := ts
      draws := (s.busRead off).2.draws
      masters := s.masters.set m { prog := rest, reads := x.reads ++ [(s.busRead off).1] } } := by
  have hlegal := (Access.offset_word s.cfg off .read).trans (if_pos hoff)
  rw [step_of_bus hturns hx hprog]
  simp only [performAccess, State.setProg_cfg, hlegal]
  rw [State.setProg, masters_modify hx, State.busRead_with off s ts, State.deliver,
    masters_modify (masters_getElem?_set hx _), List.set_set]

/-- With no command in flight an RD changes the schedule and its master alone. -/
theorem step_rd_of_idle (hidle : s.busy = false) (hturns : s.turns = .host m :: ts) (hx : s.masters[m]? = some x)
    (hprog : x.prog = rd s.cfg.base off :: rest) (hoff : off % 4 = 0 ∧ off < 0x2000) :
    step s = .next { s with
      turns := ts
      masters := s.masters.set m { prog := rest, reads := x.reads ++ [(s.busRead off).1] } } := by
  rw [step_rd hturns hx hprog hoff, State.busRead_snd_of_idle hidle]

/-- A step that performs one read of a POLL. -/
theorem step_poll {mask val : Word} (hturns : s.turns = .host m :: ts) (hx : s.masters[m]? = some x)
    (hprog : x.prog = .poll (s.cfg.base + off) mask val :: rest) (hoff : off % 4 = 0 ∧ off < 0x2000) :
    step s = .next { s with
      turns := ts
      draws := (s.busRead off).2.draws
      masters := s.masters.set m (if (s.busRead off).1 &&& mask = val then { x with prog := rest } else x) } := by
  have hlegal := (Access.offset_word s.cfg off .read).trans (if_pos hoff)
  rw [step_of_poll hturns hx hprog]
  simp only [performPoll, hlegal]
  rw [State.busRead_with off s ts s.masters]
  split_ifs
  · rw [State.setProg, masters_modify hx]
  · rw [masters_set_self hx]

theorem step_poll_of_refused {mask val : Word} (hturns : s.turns = .host m :: ts) (hx : s.masters[m]? = some x)
    (hprog : x.prog = .poll (s.cfg.base + off) mask val :: rest) (hoff : ¬ (off % 4 = 0 ∧ off < 0x2000)) :
    step s = .fault (.busError { addr := s.cfg.base + off, shape := .word, op := .read }) := by
  have hnone := (Access.offset_word s.cfg off .read).trans (if_neg hoff)
  rw [step_of_poll hturns hx hprog]
  simp only [performPoll, hnone]

end

/-- Settles O7: the read leaves the bytes, and its word goes to its master. -/
theorem readStatementReturnsTheWord : Obligations.ReadStatementReturnsTheWord := by
  intro s m ts x off rest hturns hx hmod hlt hprog
  exact ⟨_, step_rd hturns hx hprog ⟨hmod, hlt⟩, masters_getElem?_set hx _, State.readByte_congr rfl rfl⟩

/-- Settles O58: at a legal offset the POLL reads once and its master is replaced by itself or moves on. -/
theorem pollStatementRepeatsUntilItsConditionHolds : Obligations.PollStatementRepeatsUntilItsConditionHolds := by
  intro s m ts x off mask val rest hturns hx hprog
  refine ⟨fun hoff => ?_, step_poll_of_refused hturns hx hprog⟩
  exact ⟨_, step_poll hturns hx hprog hoff, masters_getElem?_set hx _,
    fun j hj => List.getElem?_set_ne hj.symm, rfl⟩

/-! ### A run of reads, and DUMP -/

theorem run_succ_of_step {s t : State} (h : step s = .next t) (k : Nat) :
    Host.Core.run Sys2Proof.core (k + 1) s = Host.Core.run Sys2Proof.core k t := by
  have hcore : Sys2Proof.core.step s = .next t := h
  simp only [Host.Core.run, hcore]

/-- With no command in flight a list of RDs, one at each turn of its master, returns the words that the state before it
shows, in order. -/
theorem run_reads {m : Nat} {ts : List Turn} {rest : List HostStep} (offs : List Nat) {s : State} {x : Master}
    (hidle : s.busy = false) (hoffs : ∀ o ∈ offs, o % 4 = 0 ∧ o < 0x2000) (hx : s.masters[m]? = some x)
    (hprog : x.prog = offs.map (rd s.cfg.base) ++ rest)
    (hturns : s.turns = List.replicate offs.length (.host m) ++ ts) :
    Host.Core.run Sys2Proof.core offs.length s = .next { s with
      turns := ts
      masters := s.masters.set m { prog := rest, reads := x.reads ++ offs.map fun o => (s.busRead o).1 } } := by
  induction offs generalizing s x with
  | nil =>
    obtain rfl : x.prog = rest := hprog
    obtain rfl : s.turns = ts := hturns
    rw [List.map_nil, List.append_nil, masters_set_self hx]; rfl
  | cons o offs ih =>
    obtain ⟨ho, hrest⟩ := List.forall_mem_cons.mp hoffs
    rw [List.length_cons, run_succ_of_step (step_rd_of_idle hidle hturns hx hprog ho)]
    refine (ih (s := { s with turns := _, masters := s.masters.set m ⟨_, _⟩ }) hidle hrest
      (masters_getElem?_set hx _) rfl rfl).trans ?_
    simp [State.busRead_with]

theorem le32Bytes_le32 (a b c d : Byte) : le32Bytes (le32 [a, b, c, d]) = [a, b, c, d] := by
  have hlane0 : (d ++ c ++ b ++ a).extractLsb' 0 8 = a := BitVec.extractLsb'_append_eq_right
  have hlane1 : (d ++ c ++ b ++ a).extractLsb' 8 8 = b := by
    rw [BitVec.extractLsb'_append_eq_of_le (by decide)]; exact BitVec.extractLsb'_append_eq_right
  have hlane2 : (d ++ c ++ b ++ a).extractLsb' 16 8 = c := by
    iterate 2 rw [BitVec.extractLsb'_append_eq_of_le (by decide)]
    exact BitVec.extractLsb'_append_eq_right
  have hlane3 : (d ++ c ++ b ++ a).extractLsb' 24 8 = d := by
    iterate 3 rw [BitVec.extractLsb'_append_eq_of_le (by decide)]
    exact BitVec.extractLsb'_eq_self
  simpa [le32Bytes, le32, byteAt] using ⟨hlane0, hlane1, hlane2, hlane3⟩

theorem State.readBytes_add (s : State) (a n k : Nat) :
    s.readBytes a (n + k) = s.readBytes a n ++ s.readBytes (a + n) k := by
  simp [State.readBytes, gen, List.range_add, Nat.add_assoc]

/-- A region of bytes, word by word. -/
theorem State.readBytes_words (s : State) (a c : Nat) :
    s.readBytes a (4 * c) = (List.range c).flatMap fun i => s.readBytes (a + 4 * i) 4 := by
  induction c with
  | zero => rfl
  | succ c ih => simp [List.range_succ, Nat.mul_succ, State.readBytes_add, ih]

theorem zeros_words (c : Nat) : zeros (4 * c) = (List.range c).flatMap fun _ => zeros 4 := by
  induction c with
  | zero => rfl
  | succ c ih => rw [List.range_succ, List.flatMap_append, ← ih]; simp [zeros, Nat.mul_succ, List.replicate_add]

/-- A word of a window is at a legal offset. -/
theorem Window.word_legal {c : Config} {w : Window} {j : Nat} (hd : c.dbufBytes ≤ 4096) (hm : j % 4 = 0)
    (hj : j + 4 ≤ w.size c) : (w.base + j) % 4 = 0 ∧ w.base + j < 0x2000 := by
  cases w <;> simp only [Window.base, Window.size, Window.span] at hj ⊢ <;> omega

/-- With no command in flight a window word reads as its four bytes, which are zeros for KEY and D. -/
theorem State.le32Bytes_busRead_window {s : State} {w : Window} {j : Nat} (hidle : s.busy = false)
    (hd : s.cfg.dbufBytes ≤ 4096) (hj : j + 4 ≤ w.size s.cfg) :
    le32Bytes (s.busRead (w.base + j)).1 = if w = .key ∨ w = .d then zeros 4 else s.readBytes (w.base + j) 4 := by
  rw [State.busRead_window hd hj]
  split_ifs with hw
  · rw [State.readWindow_secret hw]; exact (by decide : le32Bytes 0 = zeros 4)
  · rw [not_or] at hw
    rw [State.readWindow_shown (.inr ⟨hidle, hw⟩)]
    exact le32Bytes_le32 _ _ _ _

/-- The offsets that DUMP W@j, 4c reads. -/
def dumpOffsets (w : Window) (j c : Nat) : List Nat := (List.range c).map fun i => w.base + (j + 4 * i)

@[simp] theorem length_dumpOffsets (w : Window) (j c : Nat) : (dumpOffsets w j c).length = c := by
  simp [dumpOffsets]

theorem dump_eq (base : Nat) (w : Window) (j n : Nat) :
    dump base w j n = (dumpOffsets w j (ceilDiv n 4)).map (rd base) := by
  simp [dump, dumpOffsets, Nat.add_assoc]

theorem dumpOffsets_legal {cfg : Config} {w : Window} {j c : Nat} (hd : cfg.dbufBytes ≤ 4096) (hm : j % 4 = 0)
    (hsize : j + 4 * c ≤ w.size cfg) : ∀ o ∈ dumpOffsets w j c, o % 4 = 0 ∧ o < 0x2000 := by
  intro o ho
  obtain ⟨i, hi, rfl⟩ := List.mem_map.mp ho
  have hic := List.mem_range.mp hi
  exact Window.word_legal hd (by omega) (by omega)

/-- The words that a DUMP's reads show with no command in flight, as bytes. -/
theorem dumpOffsets_bytes {s : State} {w : Window} {j c : Nat} (hidle : s.busy = false) (hd : s.cfg.dbufBytes ≤ 4096)
    (hsize : j + 4 * c ≤ w.size s.cfg) :
    ((dumpOffsets w j c).map fun o => (s.busRead o).1).flatMap le32Bytes =
      if w = .key ∨ w = .d then zeros (4 * c) else s.readBytes (w.base + j) (4 * c) := by
  have hword (i : Nat) (hi : i ∈ List.range c) :=
    s.le32Bytes_busRead_window (w := w) (j := j + 4 * i) hidle hd (by have := List.mem_range.mp hi; omega)
  rw [dumpOffsets, List.map_map, List.flatMap_map, zeros_words, State.readBytes_words]
  simp only [Function.comp_apply, List.flatMap_congr hword]
  split_ifs
  · rfl
  · simp only [Nat.add_assoc]

/-- Settles O59: a DUMP is a run of reads of the window's words, which are the window's bytes in order. -/
theorem dumpYieldsTheWindowBytes : Obligations.DumpYieldsTheWindowBytes := by
  intro s m ts x rest w j n c hc hidle hd hj hsize hx hprog hturns
  have hceil : ceilDiv n 4 = c := hc.symm
  have hlength : (dumpOffsets w j c).length = c := length_dumpOffsets w j c
  rw [dump_eq, hceil] at hprog
  have hrun := run_reads (dumpOffsets w j c) hidle (dumpOffsets_legal hd hj hsize) hx hprog (hlength.symm ▸ hturns)
  rw [hlength] at hrun
  refine ⟨_, (dumpOffsets w j c).map fun o => (s.busRead o).1, hrun, ?_, masters_getElem?_set hx _, ?_,
    fun i hi => List.getElem?_set_ne hi.symm, rfl⟩
  · rw [List.length_map, hlength]
  · rw [dumpBytes_append n _ _ (by rw [List.length_map, hlength, hceil]), dumpOffsets_bytes hidle hd hsize]

end Sys2Proof.Machine
end

section
/-! PROOFS. The Algorithm Registry as REGINFO shows it (40_registry R92, R93, R96), and NOP (R97). -/

namespace Sys2Proof.Machine

/-! ### REGINFO -/

@[simp] theorem State.busRead_reginfo (s : State) : s.busRead 0x014 = (s.reginfo, s) := rfl

/-- A map's first entry gives REGINFO's word for its own tag; for every other tag the rest of the map does. -/
theorem reginfoOf_classIn_cons (e : Word × SigClass) (es : List (Word × SigClass)) (t : Word) :
    reginfoOf (classIn (e :: es) t) = if t = e.1 then reginfoOf e.2 else reginfoOf (classIn es t) := by
  simp only [classIn, apply_ite reginfoOf, eq_comm (a := t)]

/-- The word of every class, from the four lookups and the class number (40_registry R93, R96). -/
theorem reginfoOf_eq (k : SigClass) : reginfoOf k =
    match k with
    | .rsa4096Sha1 => 0x00011416
    | .rsa4096Sha256 => 0x0002202A
    | .rsa2048Sha1 => 0x00031415
    | .rsa2048Sha256 => 0x00042029
    | .eccSha1 => 0x00051404
    | .eccSha256 => 0x00062008
    | .invalid => 0 := by
  cases k <;> rfl

/-- Settles O15: the tag is looked up entry by entry in the default map, and each class found has its word. -/
theorem regInfoShowsTheRegistry : Obligations.RegInfoShowsTheRegistry := by
  intro s hmap
  rw [State.busRead_reginfo, State.reginfo, State.sigClass, hmap, Config.defaultMap]
  iterate 6 rw [reginfoOf_classIn_cons]
  simp only [reginfoOf_eq, classIn]

/-! ### NOP -/

/-- A completion without an error leaves ERR (60_exceptions R205). -/
theorem State.complete_none (s : State) :
    s.complete .none = { s with errcode := .none, done := true, pending := none } := by
  simp [State.complete]

/-- After any completion the interrupt output is IE (60_exceptions R205, R212). -/
@[simp] theorem State.irq_complete (c : ErrCode) (s : State) : (s.complete c).irq = s.ie := by
  simp [State.irq]

@[simp] theorem exec_nop (s : State) : exec .nop s = .next (s.complete .none) := rfl

/-- Settles O23: the written word is NOP's encoding, and its meaning is the completion without an error. -/
theorem nopOnlyCompletes : Obligations.NopOnlyCompletes :=
  ⟨decode_encode .nop, fun s => ⟨s.complete .none, exec_nop s, s.irq_complete .none, s.complete_none⟩⟩

end Sys2Proof.Machine
end

section
/-! PROOFS. The Digest Engine (41_digest R112 to R119): feeding bytes compresses the whole blocks of what was buffered
and what is fed, so a hash context depends on the message and not on how the ports split it; and what HASH_INIT, the
data ports, HASH_FINAL and DGST_CMP do with it. -/

namespace Sys2Proof.Machine

/-! ### Whole blocks of a byte string -/

/-- The context once the whole 64-byte blocks of the uncompressed bytes m are compressed: the rest of m is buffered. -/
def State.takeBlocks (m : List Byte) (s : State) : State :=
  { s with h := compressBlocks s.halg (m.length / 64) s.h m, hbuf := m.drop (64 * (m.length / 64)) }

theorem State.takeBlocks_of_lt {m : List Byte} (h : m.length < 64) (s : State) :
    s.takeBlocks m = { s with hbuf := m } := by
  rw [State.takeBlocks, Nat.div_eq_of_lt h]; rfl

theorem State.takeBlocks_block_append {b : List Byte} (h : b.length = 64) (m : List Byte) (s : State) :
    s.takeBlocks (b ++ m) = ({ s with h := s.halg.compress s.h b } : State).takeBlocks m := by
  have hdiv : (b ++ m).length / 64 = m.length / 64 + 1 := by rw [List.length_append, h]; omega
  have hdrop : (b ++ m).drop (64 * (m.length / 64 + 1)) = m.drop (64 * (m.length / 64)) := by
    rw [List.drop_append, List.drop_eq_nil_of_le (by omega), List.nil_append, h, Nat.mul_add_one, Nat.add_sub_cancel]
  simp only [State.takeBlocks, hdiv, hdrop, compressBlocks, List.take_left' h, List.drop_left' h]

/-- At least one block and less than two: the first is compressed (41_digest R116). -/
theorem State.takeBlocks_of_one_block {m : List Byte} (h : 64 ≤ m.length) (h2 : m.length < 128) (s : State) :
    s.takeBlocks m = { s with h := s.halg.compress s.h (m.take 64), hbuf := m.drop 64 } := by
  have hlen : (m.drop 64).length < 64 := by rw [List.length_drop]; omega
  conv_lhs => rw [← List.take_append_drop 64 m]
  rw [State.takeBlocks_block_append (List.length_take_of_le h), State.takeBlocks_of_lt hlen]

/-- A string of whole blocks leaves nothing buffered. -/
theorem State.takeBlocks_of_dvd {m : List Byte} (h : m.length % 64 = 0) (s : State) :
    s.takeBlocks m = { s with h := compressBlocks s.halg (m.length / 64) s.h m, hbuf := [] } := by
  rw [State.takeBlocks, List.drop_eq_nil_of_le (by omega)]

theorem length_compressBlocks (alg : HashAlg) (n : Nat) (h : List Word) (m : List Byte) :
    (compressBlocks alg n h m).length = h.length := by
  induction n generalizing h m with
  | zero => rfl
  | succ n ih => rw [compressBlocks, ih, length_compress]

/-! ### Feeding and absorbing -/

/-- Feeding compresses the whole blocks of the buffered bytes followed by the fed ones. -/
theorem State.feedAll_eq_takeBlocks (bs : List Byte) {s : State} (hb : s.hbuf.length < 64) :
    s.feedAll bs = s.takeBlocks (s.hbuf ++ bs) := by
  induction bs generalizing s with
  | nil => rw [List.append_nil, State.takeBlocks_of_lt hb]; rfl
  | cons b bs ih =>
    change (s.feed b).feedAll bs = _
    rw [List.append_cons]
    rcases s.feed_cases b with ⟨hl, hf⟩ | ⟨hl, hf⟩
    · have hroom : (s.feed b).hbuf.length < 64 := by rw [hf, List.length_append, List.length_singleton]; omega
      rw [ih hroom, hf]; rfl
    · have hempty : (s.feed b).hbuf.length < 64 := by rw [hf]; exact Nat.zero_lt_succ _
      have hblock : (s.hbuf ++ [b]).length = 64 := by rw [List.length_append, hl]; rfl
      rw [ih hempty, hf, State.takeBlocks_block_append hblock]; rfl

theorem State.feedAll_append (as bs : List Byte) (s : State) : s.feedAll (as ++ bs) = (s.feedAll as).feedAll bs :=
  List.foldl_append

/-- Feeding neither reads nor writes HLEN. -/
theorem State.feed_withHlen (b : Byte) (n : DWord) (s : State) :
    ({ s with hlen := n } : State).feed b = { s.feed b with hlen := n } := by
  unfold State.feed
  split <;> rfl

theorem State.feedAll_withHlen (bs : List Byte) (n : DWord) (s : State) :
    ({ s with hlen := n } : State).feedAll bs = { s.feedAll bs with hlen := n } := by
  induction bs generalizing s with
  | nil => rfl
  | cons b bs ih =>
    change (({ s with hlen := n } : State).feed b).feedAll bs = _
    rw [State.feed_withHlen, ih]; rfl

/-- Absorbing is feeding, with each byte counted in HLEN (41_digest R116). -/
theorem State.absorbAll_eq_feedAll (bs : List Byte) (s : State) :
    s.absorbAll bs = { s.feedAll bs with hlen := s.hlen + BitVec.ofNat 64 bs.length } := by
  induction bs generalizing s with
  | nil => simp [State.absorbAll, State.feedAll]
  | cons b bs ih =>
    have hcount : s.hlen + 1 + BitVec.ofNat 64 bs.length = s.hlen + BitVec.ofNat 64 (b :: bs).length := by
      rw [List.length_cons, BitVec.ofNat_add, BitVec.add_assoc, BitVec.add_comm (BitVec.ofNat 64 bs.length)]; rfl
    change (s.absorb b).absorbAll bs = _
    rw [ih, State.absorb, State.feedAll_withHlen, hcount]; rfl

theorem State.absorbAll_append (as bs : List Byte) (s : State) :
    s.absorbAll (as ++ bs) = (s.absorbAll as).absorbAll bs :=
  List.foldl_append

/-! ### HASH_INIT -/

/-- i is the HASH_INIT that resolves to alg (41_digest R113). -/
def State.InitSelects (s : State) (i : Instr) (alg : HashAlg) : Prop :=
  (i = .hashInitTag ∧ alg = digestAlgorithmFor s.sigClass) ∨ (i = .hashInitSha1 ∧ alg = .sha1) ∨
    (i = .hashInitSha256 ∧ alg = .sha256)

theorem exec_of_initSelects {s : State} {i : Instr} {alg : HashAlg} (h : s.InitSelects i alg) :
    exec i s = hashInit alg s := by
  rcases h with ⟨rfl, rfl⟩ | ⟨rfl, rfl⟩ | ⟨rfl, rfl⟩ <;> rfl

theorem hashInit_of_ne_none {alg : HashAlg} (h : alg ≠ .none) (s : State) :
    hashInit alg s = .next ((s.startHash alg).complete .none) :=
  (hashInit_cases alg s).elim (fun hn => absurd hn.1 h) And.right

/-- A completion with an error code sets ERR (60_exceptions R205, R206). -/
theorem State.complete_of_ne_none {c : ErrCode} (h : c ≠ .none) (s : State) :
    s.complete c = { s with errcode := c, err := true, done := true, pending := none } := by
  simp [State.complete, h]

/-- A completion, after steps that left ERR alone. -/
theorem State.completedAs_complete (s u : State) (h : u.err = s.err) (c : ErrCode) :
    s.CompletedAs (u.complete c) c :=
  ⟨rfl, by rw [State.complete_err, h], rfl, rfl⟩

/-- Settles O26: the selector resolves to an algorithm, and HASH_INIT starts its context or fails without one. -/
theorem hashInitStartsAContext : Obligations.HashInitStartsAContext := by
  refine ⟨decode_encode .hashInitTag, decode_encode .hashInitSha1, decode_encode .hashInitSha256, ?_⟩
  intro s i alg hi
  rw [exec_of_initSelects hi]
  refine ⟨fun ha => ⟨(s.startHash alg).complete .none, hashInit_of_ne_none ha s,
    s.completedAs_complete (s.startHash alg) rfl .none, by constructor <;> rfl,
    rfl, rfl, rfl, rfl, ?_, ?_, rfl, rfl, rfl, fun _ => rfl⟩, ?_⟩
  · rintro rfl; rfl
  · rintro rfl; rfl
  · rintro rfl
    rw [hashInit, State.raise, State.complete_of_ne_none (by decide)]

/-! ### The data ports -/

theorem exec_of_portBytes {i : Instr} {bs : List Byte} (h : portBytes i = some bs) (s : State) :
    exec i s = if s.portOpen then .next (s.absorbAll bs) else .next s.dropWrite := by
  cases i <;> cases h <;> rfl

/-- The port takes a write exactly when the engine is idle and a context is active (41_digest R114, R115). -/
theorem State.portOpen_iff (s : State) : s.portOpen = true ↔ s.busy = false ∧ s.hact = true := by
  rw [State.portOpen, Bool.and_eq_true, Bool.not_eq_true']

theorem exec_of_portOpen {i : Instr} {bs : List Byte} {s : State} (h : portBytes i = some bs)
    (hidle : s.busy = false) (hact : s.hact = true) : exec i s = .next (s.absorbAll bs) := by
  rw [exec_of_portBytes h, if_pos (s.portOpen_iff.mpr ⟨hidle, hact⟩)]

theorem exec_of_portClosed {i : Instr} {bs : List Byte} {s : State} (h : portBytes i = some bs)
    (hclosed : s.busy = true ∨ s.hact = false) : exec i s = .next { s with perr := true } := by
  have hnot : ¬ s.portOpen = true := by
    rw [State.portOpen_iff]
    rintro ⟨hidle, hact⟩
    rcases hclosed with hbusy | hinactive
    · exact Bool.false_ne_true (hidle.symm.trans hbusy)
    · exact Bool.false_ne_true (hinactive.symm.trans hact)
  rw [exec_of_portBytes h, if_neg hnot]; rfl

/-- Settles O27: the four bytes complete at most one block. -/
theorem hdata32AbsorbsFourBytes : Obligations.Hdata32AbsorbsFourBytes := by
  refine ⟨fun v => decode_encode (.hdata32 v), fun s v => ⟨fun hidle hact hb => ?_, exec_of_portClosed rfl⟩⟩
  have ht : s.absorbAll (le32Bytes v) = { s.takeBlocks (s.hbuf ++ le32Bytes v) with hlen := s.hlen + 4 } := by
    rw [State.absorbAll_eq_feedAll, State.feedAll_eq_takeBlocks _ hb]; rfl
  have hlt : (s.hbuf ++ le32Bytes v).length < 128 := by rw [List.length_append, length_le32Bytes]; omega
  refine ⟨s.absorbAll (le32Bytes v), s.hbuf ++ le32Bytes v, rfl, exec_of_portOpen rfl hidle hact, ?_, ?_, ?_⟩
  · rw [ht]; rfl
  · intro hm
    rw [ht, State.takeBlocks_of_lt hm]
    exact ⟨rfl, rfl⟩
  · intro hm
    rw [ht, State.takeBlocks_of_one_block hm hlt]
    exact ⟨rfl, rfl⟩

/-- Settles O28: one byte is one fed byte, which is buffered or completes the block. -/
theorem hdata8AbsorbsOneByte : Obligations.Hdata8AbsorbsOneByte := by
  refine ⟨fun v => decode_encode (.hdata8 v), fun s v =>
    ⟨fun hidle hact _ => ?_, exec_of_portClosed rfl, fun v' hv => ?_⟩⟩
  · have hexec : exec (.hdata8 v) s = .next (s.absorbAll [v.extractLsb' 0 8]) := exec_of_portOpen rfl hidle hact
    refine ⟨s.absorb (v.extractLsb' 0 8), hexec, ?_, fun hl => ?_, fun hl => ?_⟩
    · rw [State.absorb_frame]
    · obtain ⟨-, hf⟩ := (s.feed_cases (v.extractLsb' 0 8)).resolve_right fun h => absurd h.1 (by omega)
      rw [State.absorb, hf]
      exact ⟨rfl, rfl⟩
    · obtain ⟨-, hf⟩ := (s.feed_cases (v.extractLsb' 0 8)).resolve_left fun h => h.1 hl
      rw [State.absorb, hf]
      exact ⟨rfl, rfl⟩
  · rw [exec_of_portBytes (i := .hdata8 v') rfl, exec_of_portBytes (i := .hdata8 v) rfl, hv]

/-! ### HASH_FINAL -/

/-- The chaining value that HASH_FINAL writes out: H after the padding for HLEN (41_digest R117). -/
def State.finalH (s : State) : List Word := (s.feedAll (pad s.hlen.toNat)).h

/-- What is buffered of n bytes and the padding for n are whole blocks (41_digest R112). -/
theorem length_append_pad_mod {m : List Byte} {n : Nat} (h : m.length % 64 = n % 64) :
    (m ++ pad n).length % 64 = 0 := by
  have hpad := length_pad n
  rw [List.length_append]
  omega

/-- The padding compresses everything that was buffered. -/
theorem State.feedAll_pad {s : State} (hb : s.hbuf.length = s.hlen.toNat % 64) :
    s.feedAll (pad s.hlen.toNat) = { s with h := s.finalH, hbuf := [] } := by
  have hwhole := length_append_pad_mod (m := s.hbuf) (n := s.hlen.toNat) (by omega)
  rw [State.finalH, State.feedAll_eq_takeBlocks _ (by omega), State.takeBlocks_of_dvd hwhole]

theorem State.finalH_eq_compressBlocks {s : State} (hb : s.hbuf.length < 64) :
    s.finalH = compressBlocks s.halg ((s.hbuf ++ pad s.hlen.toNat).length / 64) s.h (s.hbuf ++ pad s.hlen.toNat) := by
  rw [State.finalH, State.feedAll_eq_takeBlocks _ hb]; rfl

/-- What HASH_FINAL leaves: the digest in DIGEST, an empty and inactive context, H undefined (41_digest R117). -/
theorem State.finishHash_eq {s : State} (hb : s.hbuf.length = s.hlen.toNat % 64) :
    s.finishHash = State.undefineH
      { s.setWindow .digest (digestWindow s.halg s.finalH) with h := s.finalH, hbuf := [], hact := false } := by
  simp only [State.finishHash, State.feedAll_pad hb]; rfl

/-- A window read back after a store from its byte 0 on (00_scope R9). -/
theorem State.window_setWindow (s : State) (w : Window) (bs : List Byte) {n : Nat} (h : bs.length = n) :
    (s.setWindow w bs).window w n = bs := by
  subst h; exact s.readBytes_storeBytes w.base bs

theorem State.window_finishHash {s : State} (hb : s.hbuf.length = s.hlen.toNat % 64) :
    s.finishHash.window .digest 32 = digestWindow s.halg s.finalH := by
  rw [State.finishHash_eq hb]
  exact s.window_setWindow .digest _ (length_digestWindow _ _)

theorem exec_hashFinal_of_hact {s : State} (h : s.hact = true) :
    exec .hashFinal s = .next (s.finishHash.complete .none) :=
  if_pos h

theorem exec_hashFinal_of_not_hact {s : State} (h : s.hact = false) : exec .hashFinal s =
    .next { s with errcode := .noHashContext, err := true, done := true, pending := none } := by
  have hraise : exec .hashFinal s = .next (s.raise .noHashContext) := if_neg (Bool.eq_false_iff.mp h)
  rw [hraise, State.raise, State.complete_of_ne_none (by decide)]

/-- For the H of an algorithm the digest is all its words in order. -/
theorem digestOf_eq_flatMap {alg : HashAlg} (ha : alg ≠ .none) {h : List Word} (hl : h.length = alg.words) :
    digestOf alg h = h.flatMap be32Bytes := by
  have hwords : alg.digestBytes / 4 = h.length := by
    rw [hl]
    cases alg
    case none => exact absurd rfl ha
    case sha1 => rfl
    case sha256 => rfl
  have hh : (List.range h.length).map (fun i => h.getD i 0) = h :=
    List.ext_getElem (by simp) fun i h1 h2 => by simp [h2]
  rw [digestOf, hwords]
  conv_rhs => rw [← hh, List.flatMap_map]

/-- Settles O29: the well-formed context's padding ends on a block boundary, and DIGEST is read back whole. -/
theorem hashFinalWritesTheDigest : Obligations.HashFinalWritesTheDigest := by
  refine ⟨decode_encode .hashFinal, fun s => ⟨fun hact hok => ?_, exec_hashFinal_of_not_hact⟩⟩
  have hbuf := hok.buffered hact
  have hh : s.finalH = _ := s.finalH_eq_compressBlocks (by omega)
  have hwords : s.finalH.length = s.halg.words := by rw [hh, length_compressBlocks, hok.chaining hact]
  have hdigest : s.finishHash.window .digest 32 = s.finalH.flatMap be32Bytes ++ zeros (32 - s.halg.digestBytes) := by
    rw [State.window_finishHash hbuf, digestWindow, digestOf_eq_flatMap (hok.algorithm hact) hwords]
  have hsha1 (h1 : s.halg = .sha1) : s.finishHash.window .digest 32 = s.finalH.flatMap be32Bytes ++ zeros 12 :=
    hdigest.trans (by rw [h1]; rfl)
  have hsha256 (h256 : s.halg = .sha256) : s.finishHash.window .digest 32 = s.finalH.flatMap be32Bytes :=
    hdigest.trans (by rw [h256]; exact List.append_nil _)
  have hbytes (x : Nat) (hx : x < 0x060 ∨ 0x060 + 32 ≤ x) : s.finishHash.readByte x = s.readByte x := by
    rw [State.finishHash_eq hbuf]
    exact s.readByte_storeBytes_outside _ _ x (by rwa [length_digestWindow])
  refine ⟨s.finishHash.complete .none, s.hbuf ++ pad s.hlen.toNat, s.finalH, rfl,
    length_append_pad_mod (by omega), hh, exec_hashFinal_of_hact hact, ?_⟩
  rw [State.finishHash_eq hbuf] at hsha1 hsha256 hbytes ⊢
  exact ⟨s.completedAs_complete _ (by rfl) .none, by constructor <;> rfl, rfl, rfl, rfl, rfl, rfl, rfl,
    hsha1, hsha256, hbytes⟩

/-! ### A message through the ports -/

theorem execAll_cons_of_next {i : Instr} {s t : State} (h : exec i s = .next t) (is : List Instr) :
    execAll (i :: is) s = execAll is t := by
  rw [execAll, h]

/-- A run of port operations absorbs the bytes they carry, in order: none of the writes is dropped. -/
theorem execAll_ports_append {ops : List Instr} {ms : List (List Byte)} (hops : ops.map portBytes = ms.map some)
    {s : State} (hidle : s.busy = false) (hact : s.hact = true) (is : List Instr) :
    execAll (ops ++ is) s = execAll is (s.absorbAll ms.flatten) := by
  induction ops generalizing s ms with
  | nil =>
    obtain rfl : ms = [] := by simpa using hops
    rfl
  | cons i ops ih =>
    cases ms with
    | nil => cases hops
    | cons m ms =>
      obtain ⟨hm, hms⟩ := List.cons.inj hops
      have hframe := s.absorbAll_frame m
      have hidle' : (s.absorbAll m).busy = false := by rw [hframe]; exact hidle
      have hact' : (s.absorbAll m).hact = true := by rw [hframe]; exact hact
      rw [List.cons_append, execAll_cons_of_next (exec_of_portOpen hm hidle hact), ih hms hidle' hact',
        List.flatten_cons, State.absorbAll_append]

/-- The padding of a message longer than HLEN counts is that of HLEN (41_digest R112). -/
theorem pad_mod (n : Nat) : pad (n % 2 ^ 64) = pad n := by
  have h1 : n % 2 ^ 64 % 64 = n % 64 := by omega
  have h2 : 8 * (n % 2 ^ 64) % 2 ^ 64 = 8 * n % 2 ^ 64 := by omega
  rw [pad, h1, h2, pad]

theorem State.hlen_absorbAll {s : State} (hlen : s.hlen = 0) (m : List Byte) :
    (s.absorbAll m).hlen = BitVec.ofNat 64 m.length := by
  rw [State.absorbAll_eq_feedAll, hlen]; exact BitVec.zero_add _

/-- A context that started empty holds the HLEN mod 64 bytes of 10_state R44, also once HLEN has wrapped. -/
theorem State.length_hbuf_absorbAll {s : State} (hbuf : s.hbuf = []) (hlen : s.hlen = 0) (m : List Byte) :
    (s.absorbAll m).hbuf.length = (s.absorbAll m).hlen.toNat % 64 := by
  have hfeed := State.length_hbuf_feedAll m (s := s) (by rw [hbuf]; decide)
  rw [hbuf, List.length_nil, Nat.zero_add] at hfeed
  rw [State.hlen_absorbAll hlen, BitVec.toNat_ofNat, State.absorbAll_eq_feedAll, hfeed]
  omega

/-- Absorbing a message into a new context and padding compresses the blocks of the padded message from H0. -/
theorem State.finalH_absorbAll {s : State} (hbuf : s.hbuf = []) (hlen : s.hlen = 0) (m : List Byte) :
    (s.absorbAll m).finalH = compressBlocks s.halg ((m ++ pad m.length).length / 64) s.h (m ++ pad m.length) := by
  rw [State.finalH, State.hlen_absorbAll hlen, BitVec.toNat_ofNat, pad_mod, State.absorbAll_eq_feedAll,
    State.feedAll_withHlen, ← State.feedAll_append, State.feedAll_eq_takeBlocks _ (by rw [hbuf]; decide), hbuf]
  rfl

/-- HASH_FINAL after a message was absorbed into a new context writes the one-shot digest (41_digest R112, R117). -/
theorem exec_hashFinal_absorbAll {s : State} (hact : s.hact = true) (hh : s.h = s.halg.initial) (hbuf : s.hbuf = [])
    (hlen : s.hlen = 0) (m : List Byte) : ∃ t, exec .hashFinal (s.absorbAll m) = .next t ∧
      t.window .digest 32 = digestMessage s.halg m ++ zeros (32 - s.halg.digestBytes) ∧
      t.hlen = BitVec.ofNat 64 m.length ∧ t.perr = s.perr ∧ t.errcode = .none ∧ t.hact = false ∧ t.halg = s.halg := by
  have hframe := s.absorbAll_frame m
  have hact' : (s.absorbAll m).hact = true := by rw [hframe]; exact hact
  have halg' : (s.absorbAll m).halg = s.halg := by rw [hframe]
  have hperr' : (s.absorbAll m).perr = s.perr := by rw [hframe]
  have hlen' := State.hlen_absorbAll hlen m
  have hbuf' := State.length_hbuf_absorbAll hbuf hlen m
  refine ⟨_, exec_hashFinal_of_hact hact', ?_, ?_⟩
  · calc (s.absorbAll m).finishHash.window .digest 32
      _ = digestWindow (s.absorbAll m).halg (s.absorbAll m).finalH := State.window_finishHash hbuf'
      _ = digestWindow s.halg _ := by rw [halg', State.finalH_absorbAll hbuf hlen, hh]
      _ = digestMessage s.halg m ++ zeros (32 - s.halg.digestBytes) := rfl
  · rw [State.finishHash_eq hbuf']
    exact ⟨hlen', hperr', rfl, rfl, halg'⟩

/-- Settles O30: HASH_INIT opens the ports, the operations absorb the message, and HASH_FINAL pads it. -/
theorem streamingHashIsTheOneShotDigest : Obligations.StreamingHashIsTheOneShotDigest := by
  intro alg i s ops ms hi ha hops
  have hinit := (exec_of_initSelects hi).trans (hashInit_of_ne_none ha s)
  obtain ⟨t, hfinal, hdigest⟩ :=
    exec_hashFinal_absorbAll (s := (s.startHash alg).complete .none) rfl rfl rfl rfl ms.flatten
  refine ⟨t, ?_, hdigest⟩
  rw [execAll_cons_of_next hinit, execAll_ports_append hops rfl rfl, execAll_cons_of_next hfinal, execAll]

/-! ### DGST_CMP -/

/-- Two windows agree exactly when they agree byte by byte. -/
theorem State.window_eq_window_iff (s : State) (v w : Window) (n : Nat) :
    s.window v n = s.window w n ↔ ∀ j, j < n → s.readByte (v.base + j) = s.readByte (w.base + j) := by
  simp only [State.window, State.readBytes, gen, List.map_inj_left, List.mem_range]

/-- Settles O31: the comparison of the two windows is the comparison of all their bytes. -/
theorem dgstCmpComparesAllBytes : Obligations.DgstCmpComparesAllBytes := by
  refine ⟨decode_encode .dgstCmp, fun s => ⟨_, rfl, State.complete_none _, ?_⟩⟩
  rw [State.complete_result, decide_eq_true_iff]
  exact s.window_eq_window_iff .digest .ref 32

end Sys2Proof.Machine
end

section
/-! PROOFS. AES-128 on one block (42_cipher R128 to R131): the lengths of the key schedule and of a block, the inverse of
each transformation, and decryption as the inverse of encryption. -/

namespace Sys2Proof.Machine

/-! ### Bytes of a byte string -/

theorem byteAt_eq_getElem {s : List Byte} {i : Nat} (h : i < s.length) : byteAt s i = s[i] := by
  simp [byteAt, h]

theorem byteAt_gen {n i : Nat} (h : i < n) (f : Nat → Byte) : byteAt (gen n f) i = f i := by
  simp [byteAt, gen, h]

/-- Two byte strings of one length are equal when they agree at every index. -/
theorem eq_of_byteAt_eq {a b : List Byte} (hl : a.length = b.length)
    (h : ∀ i, i < a.length → byteAt a i = byteAt b i) : a = b :=
  List.ext_getElem hl fun i ha hb => by rw [← byteAt_eq_getElem ha, ← byteAt_eq_getElem hb, h i ha]

theorem gen_byteAt {n : Nat} {s : List Byte} (h : s.length = n) : gen n (byteAt s) = s :=
  eq_of_byteAt_eq (by rw [length_gen, h]) fun i hi => byteAt_gen (by rwa [length_gen] at hi) _

theorem byteAt_xorBytes {a b : List Byte} {i : Nat} (ha : i < a.length) (hb : i < b.length) :
    byteAt (xorBytes a b) i = byteAt a i ^^^ byteAt b i := by
  rw [byteAt_eq_getElem ha, byteAt_eq_getElem hb, byteAt_eq_getElem (by rw [length_xorBytes]; omega)]
  simp [xorBytes]

theorem xorBytes_xorBytes_cancel {a b : List Byte} (h : a.length = b.length) : xorBytes (xorBytes a b) b = a := by
  refine eq_of_byteAt_eq (by simp [h]) fun i hi => ?_
  have hia : i < a.length := by rw [length_xorBytes, length_xorBytes] at hi; omega
  rw [byteAt_xorBytes (by rw [length_xorBytes]; omega) (by omega), byteAt_xorBytes hia (by omega), BitVec.xor_assoc,
    BitVec.xor_self, BitVec.xor_zero]

/-! ### The key schedule (42_cipher R130) -/

/-- Every word of a key schedule has 4 bytes. -/
def WordsOk (ws : List (List Byte)) : Prop := ∀ w ∈ ws, w.length = 4

theorem WordsOk.length_getD {ws : List (List Byte)} (h : WordsOk ws) {i : Nat} (hi : i < ws.length) :
    (ws.getD i []).length = 4 := by
  rw [List.getD_eq_getElem _ _ hi]
  exact h _ (List.getElem_mem hi)

/-- The schedule grows by n words of 4 bytes, once it has the four words that a new one is made of. -/
theorem extendKey_wordsOk (n i : Nat) {ws : List (List Byte)} (hl : 4 ≤ ws.length) (h : WordsOk ws) :
    WordsOk (extendKey n i ws) ∧ (extendKey n i ws).length = ws.length + n := by
  induction n generalizing i ws with
  | zero => exact ⟨h, rfl⟩
  | succ n ih =>
    have hlast : (if i % 4 = 0 then scheduleCore i (ws.getD 0 []) else ws.getD 0 []).length = 4 := by
      split
      · rfl
      · exact h.length_getD (by omega)
    have hnew : (xorBytes (ws.getD 3 [])
        (if i % 4 = 0 then scheduleCore i (ws.getD 0 []) else ws.getD 0 [])).length = 4 := by
      rw [length_xorBytes, hlast, h.length_getD (by omega), Nat.min_self]
    obtain ⟨hok, hlen⟩ := ih (i + 1) (ws := _ :: ws) (Nat.le_succ_of_le hl) (List.forall_mem_cons.mpr ⟨hnew, h⟩)
    exact ⟨hok, hlen.trans (by rw [List.length_cons]; omega)⟩

theorem keyWords_wordsOk (k : List Byte) : WordsOk (keyWords k) ∧ (keyWords k).length = 44 := by
  obtain ⟨hok, hlen⟩ := extendKey_wordsOk 40 4
    (ws := ((List.range 4).map (fun i => gen 4 (fun j => byteAt k (4 * i + j)))).reverse) (by simp)
    (by simp [WordsOk])
  exact ⟨fun w hw => hok w (List.mem_reverse.mp hw), by rw [keyWords, List.length_reverse, hlen]; simp⟩

theorem length_roundKey (k : List Byte) {r : Nat} (hr : r ≤ 10) : (roundKey (keyWords k) r).length = 16 := by
  obtain ⟨hok, hlen⟩ := keyWords_wordsOk k
  have hword (j : Nat) (hj : j < 44) : ((keyWords k).getD j []).length = 4 := hok.length_getD (by omega)
  simp only [roundKey, List.length_append]
  rw [hword _ (by omega), hword _ (by omega), hword _ (by omega), hword _ (by omega)]

/-! ### The lengths of a block's transformations -/

@[simp] theorem length_subBytes (s : List Byte) : (subBytes s).length = s.length := List.length_map _
@[simp] theorem length_invSubBytes (s : List Byte) : (invSubBytes s).length = s.length := List.length_map _
@[simp] theorem length_shiftRows (s : List Byte) : (shiftRows s).length = 16 := length_gen _ _
@[simp] theorem length_invShiftRows (s : List Byte) : (invShiftRows s).length = 16 := length_gen _ _
@[simp] theorem length_mixColumns (s : List Byte) : (mixColumns s).length = 16 := length_gen _ _

theorem length_addRoundKey (k : List Byte) {r : Nat} (hr : r ≤ 10) {s : List Byte} (h : s.length = 16) :
    (addRoundKey (keyWords k) r s).length = 16 := by
  rw [addRoundKey, length_xorBytes, length_roundKey k hr, h, Nat.min_self]

@[simp] theorem length_aesE (k b : List Byte) : (aesE k b).length = 16 :=
  length_addRoundKey k (by omega) (length_shiftRows _)

@[simp] theorem length_aesD (k b : List Byte) : (aesD k b).length = 16 :=
  length_addRoundKey k (by omega) (by rw [length_invSubBytes, length_invShiftRows])

theorem length_encRounds (k : List Byte) {n : Nat} (hn : n ≤ 10) {s : List Byte} (h : s.length = 16) :
    (encRounds (keyWords k) n s).length = 16 := by
  cases n with
  | zero => exact h
  | succ n => exact length_addRoundKey k hn (length_mixColumns _)

/-! ### Multiplication in GF(2^8) (42_cipher R128) -/

/-- The XOR of the terms of the set bits is additive in the byte whose bits are looked at. -/
theorem foldl_xor_bits (f : Nat → Byte) (x y a b : Byte) (is : List Nat) :
    is.foldl (fun acc i => if (x ^^^ y).getLsbD i then acc ^^^ f i else acc) (a ^^^ b) =
      is.foldl (fun acc i => if x.getLsbD i then acc ^^^ f i else acc) a ^^^
        is.foldl (fun acc i => if y.getLsbD i then acc ^^^ f i else acc) b := by
  induction is generalizing a b with
  | nil => rfl
  | cons i is ih =>
    have hstep : (if (x ^^^ y).getLsbD i then a ^^^ b ^^^ f i else a ^^^ b) =
        (if x.getLsbD i then a ^^^ f i else a) ^^^ (if y.getLsbD i then b ^^^ f i else b) := by
      have hcancel : a ^^^ f i ^^^ (b ^^^ f i) = a ^^^ b :=
        calc _ = a ^^^ b ^^^ (f i ^^^ f i) := by ac_rfl
          _ = a ^^^ b := by rw [BitVec.xor_self, BitVec.xor_zero]
      rw [BitVec.getLsbD_xor]
      cases x.getLsbD i <;> cases y.getLsbD i
      case false.false => rfl
      case false.true => exact BitVec.xor_assoc a b (f i)
      case true.false => exact (by ac_rfl : a ^^^ b ^^^ f i = a ^^^ f i ^^^ b)
      case true.true => exact hcancel.symm
    rw [List.foldl_cons, List.foldl_cons, List.foldl_cons, hstep, ih]

theorem gmul_xor (c x y : Byte) : gmul c (x ^^^ y) = gmul c x ^^^ gmul c y :=
  foldl_xor_bits (fun i => xtimes i c) x y 0 0 (List.range 8)

/-- The matrix of InvMixColumns times that of MixColumns is the identity: the four entries of a row, each a sum of
four products (42_cipher R130, R131). -/
theorem gmul_row_diag (x : Byte) :
    gmul 0x0E (gmul 0x02 x) ^^^ gmul 0x0B x ^^^ gmul 0x0D x ^^^ gmul 0x09 (gmul 0x03 x) = x := by
  revert x; decide +kernel

theorem gmul_row_next (x : Byte) :
    gmul 0x0E (gmul 0x03 x) ^^^ gmul 0x0B (gmul 0x02 x) ^^^ gmul 0x0D x ^^^ gmul 0x09 x = 0#8 := by
  revert x; decide +kernel

theorem gmul_row_opposite (x : Byte) :
    gmul 0x0E x ^^^ gmul 0x0B (gmul 0x03 x) ^^^ gmul 0x0D (gmul 0x02 x) ^^^ gmul 0x09 x = 0#8 := by
  revert x; decide +kernel

theorem gmul_row_prev (x : Byte) :
    gmul 0x0E x ^^^ gmul 0x0B x ^^^ gmul 0x0D (gmul 0x03 x) ^^^ gmul 0x09 (gmul 0x02 x) = 0#8 := by
  revert x; decide +kernel

/-- A row of InvMixColumns applied to a column that MixColumns made of w, x, y, z gives back w. -/
theorem invMix_mix (w x y z : Byte) :
    gmul 0x0E (gmul 0x02 w ^^^ gmul 0x03 x ^^^ y ^^^ z) ^^^ gmul 0x0B (gmul 0x02 x ^^^ gmul 0x03 y ^^^ z ^^^ w) ^^^
      gmul 0x0D (gmul 0x02 y ^^^ gmul 0x03 z ^^^ w ^^^ x) ^^^
      gmul 0x09 (gmul 0x02 z ^^^ gmul 0x03 w ^^^ x ^^^ y) = w := by
  simp only [gmul_xor]
  calc _ = (gmul 0x0E (gmul 0x02 w) ^^^ gmul 0x0B w ^^^ gmul 0x0D w ^^^ gmul 0x09 (gmul 0x03 w)) ^^^
        (gmul 0x0E (gmul 0x03 x) ^^^ gmul 0x0B (gmul 0x02 x) ^^^ gmul 0x0D x ^^^ gmul 0x09 x) ^^^
        (gmul 0x0E y ^^^ gmul 0x0B (gmul 0x03 y) ^^^ gmul 0x0D (gmul 0x02 y) ^^^ gmul 0x09 y) ^^^
        (gmul 0x0E z ^^^ gmul 0x0B z ^^^ gmul 0x0D (gmul 0x03 z) ^^^ gmul 0x09 (gmul 0x02 z)) := by ac_rfl
    _ = w := by simp only [gmul_row_diag, gmul_row_next, gmul_row_opposite, gmul_row_prev, BitVec.xor_zero]

/-! ### The inverse of each transformation (42_cipher R131) -/

theorem invSbox_sbox (x : Byte) : invSbox (sbox x) = x := by
  revert x; decide +kernel

theorem invSubBytes_subBytes (s : List Byte) : invSubBytes (subBytes s) = s := by
  rw [invSubBytes, subBytes, List.map_map, Function.comp_def]
  simp only [invSbox_sbox, List.map_id']

theorem invShiftRows_shiftRows {s : List Byte} (h : s.length = 16) : invShiftRows (shiftRows s) = s := by
  conv_rhs => rw [← gen_byteAt h]
  refine List.map_congr_left fun i hi => ?_
  have hi16 : i < 16 := List.mem_range.mp hi
  rw [shiftRows, byteAt_gen (by omega)]
  exact congrArg (byteAt s) (by omega)

/-- Row r of column c of a block, the rows counted modulo 4 (42_cipher R129). -/
def entry (s : List Byte) (c r : Nat) : Byte := byteAt s (r % 4 + 4 * c)

theorem entry_add_four (s : List Byte) (c r : Nat) : entry s c (r + 4) = entry s c r := by
  rw [entry, Nat.add_mod_right, entry]

theorem entry_mixColumns (s : List Byte) {c : Nat} (hc : c < 4) (r : Nat) : entry (mixColumns s) c r =
    gmul 0x02 (entry s c r) ^^^ gmul 0x03 (entry s c (r + 1)) ^^^ entry s c (r + 2) ^^^ entry s c (r + 3) := by
  have hrow : (r % 4 + 4 * c) % 4 = r % 4 := by omega
  have hcol : (r % 4 + 4 * c) / 4 = c := by omega
  rw [entry, mixColumns, byteAt_gen (by omega)]
  simp only [hrow, hcol, Nat.mod_mod, Nat.mod_add_mod, entry]

theorem invMixColumns_mixColumns {s : List Byte} (h : s.length = 16) : invMixColumns (mixColumns s) = s := by
  conv_rhs => rw [← gen_byteAt h]
  refine List.map_congr_left fun i hi => ?_
  have hcol : i / 4 < 4 := by have := List.mem_range.mp hi; omega
  have hi4 : entry s (i / 4) (i % 4) = byteAt s i := congrArg (byteAt s) (by omega)
  change gmul 0x0E (entry (mixColumns s) (i / 4) (i % 4)) ^^^ gmul 0x0B (entry (mixColumns s) (i / 4) (i % 4 + 1)) ^^^
    gmul 0x0D (entry (mixColumns s) (i / 4) (i % 4 + 2)) ^^^ gmul 0x09 (entry (mixColumns s) (i / 4) (i % 4 + 3)) = _
  simp only [entry_mixColumns s hcol, Nat.add_assoc, Nat.reduceAdd, entry_add_four]
  rw [invMix_mix, hi4]

theorem addRoundKey_addRoundKey (k : List Byte) {r : Nat} (hr : r ≤ 10) {s : List Byte} (h : s.length = 16) :
    addRoundKey (keyWords k) r (addRoundKey (keyWords k) r s) = s :=
  xorBytes_xorBytes_cancel (by rw [h, length_roundKey k hr])

/-! ### Decryption inverts encryption -/

/-- The decryption rounds undo the encryption rounds, between the final round's SubBytes and ShiftRows and the first's. -/
theorem decRounds_encRounds (k : List Byte) {n : Nat} (hn : n ≤ 9) {s : List Byte} (h : s.length = 16) :
    decRounds (keyWords k) n (shiftRows (subBytes (encRounds (keyWords k) n s))) = shiftRows (subBytes s) := by
  induction n with
  | zero => rfl
  | succ n ih =>
    have hlen : (encRounds (keyWords k) (n + 1) s).length = 16 := length_encRounds k (by omega) h
    rw [decRounds, invShiftRows_shiftRows (by rw [length_subBytes, hlen]), invSubBytes_subBytes, encRounds,
      addRoundKey_addRoundKey k (by omega) (length_mixColumns _), invMixColumns_mixColumns (length_shiftRows _),
      ih (by omega)]

/-- Settles O32: round by round, each transformation of the decryption undoes its counterpart. -/
theorem aesDecryptionInvertsEncryption : Obligations.AesDecryptionInvertsEncryption := by
  intro k b _ hb
  have hstart : (addRoundKey (keyWords k) 0 b).length = 16 := length_addRoundKey k (by omega) hb
  rw [aesD, aesE, addRoundKey_addRoundKey k (by omega) (length_shiftRows _), decRounds_encRounds k (by omega) hstart,
    invShiftRows_shiftRows (by rw [length_subBytes, hstart]), invSubBytes_subBytes,
    addRoundKey_addRoundKey k (by omega) hb]

theorem aesE_fips : aesE (be 16 0x000102030405060708090a0b0c0d0e0f) (be 16 0x00112233445566778899aabbccddeeff) =
    be 16 0x69c4e0d86a7b0430d8cdb78070b4c55a := by decide +kernel

/-- Settles O33: the encryption is computed, and decryption inverts it. -/
theorem fipsExampleEncrypts : Obligations.FipsExampleEncrypts := by
  refine ⟨aesE_fips, ?_⟩
  rw [← aesE_fips]
  exact aesDecryptionInvertsEncryption _ _ (length_be 16 _) (length_be 16 _)

end Sys2Proof.Machine
end

section
/-! PROOFS. The cipher modes as functions of key, chaining value or counter, and data (42_cipher R132 to R138): each output
block, how a mode goes on over a second part, what the inverse mode gives back, and the fields of a counter. -/

namespace Sys2Proof.Machine

/-! ### The 16-byte blocks of a byte string -/

/-- Bytes 16j to 16j + 15 of a byte string. -/
def block (m : List Byte) (j : Nat) : List Byte := (m.drop (16 * j)).take 16

theorem block_eq_ite (m : List Byte) (j : Nat) :
    block m j = if j = 0 then m.take 16 else block (m.drop 16) (j - 1) := by
  cases j with
  | zero => rfl
  | succ j =>
    rw [if_neg (Nat.succ_ne_zero j), Nat.add_sub_cancel, block, block, List.drop_drop, Nat.mul_succ, Nat.add_comm]

theorem block_append {a : List Byte} (h : a.length = 16) (m : List Byte) (j : Nat) :
    block (a ++ m) j = if j = 0 then a else block m (j - 1) := by
  rw [block_eq_ite, List.take_left' h, List.drop_left' h]

theorem byteAt_append (a b : List Byte) (i : Nat) :
    byteAt (a ++ b) i = if i < a.length then byteAt a i else byteAt b (i - a.length) := by
  split
  case isTrue h => exact List.getD_append a b 0 i h
  case isFalse h => exact List.getD_append_right a b 0 i (Nat.not_lt.mp h)

theorem byteAt_drop (a : List Byte) (n i : Nat) : byteAt (a.drop n) i = byteAt a (n + i) := by
  simp [byteAt]

theorem byteAt_take {a : List Byte} {n i : Nat} (h : i < n) : byteAt (a.take n) i = byteAt a i := by
  simp [byteAt, h]

/-! ### CBC encryption (42_cipher R132) -/

theorem length_cbcEncrypt (k : List Byte) (n : Nat) (c m : List Byte) : (cbcEncrypt k n c m).1.length = 16 * n := by
  induction n generalizing c m with
  | zero => rfl
  | succ n ih => rw [cbcEncrypt, List.length_append, length_aesE, ih, Nat.mul_succ, Nat.add_comm]

/-- Each ciphertext block is the encryption of its plaintext block XORed with the ciphertext block before. -/
theorem block_cbcEncrypt (k : List Byte) {n j : Nat} (h : j < n) (c m : List Byte) :
    block (cbcEncrypt k n c m).1 j =
      aesE k (xorBytes (block m j) (if j = 0 then c else block (cbcEncrypt k n c m).1 (j - 1))) := by
  induction n generalizing c m j with
  | zero => exact absurd h (Nat.not_lt_zero j)
  | succ n ih =>
    rw [cbcEncrypt, block_append (length_aesE _ _), block_eq_ite m]
    cases j with
    | zero => rfl
    | succ j =>
      simp only [Nat.succ_ne_zero, if_false, Nat.add_sub_cancel]
      rw [ih (Nat.lt_of_succ_lt_succ h), block_append (length_aesE _ _)]

/-- The chaining value that CBC encryption leaves is its last ciphertext block. -/
theorem cbcEncrypt_chain (k : List Byte) (n : Nat) (c m : List Byte) :
    (cbcEncrypt k n c m).2 = if n = 0 then c else block (cbcEncrypt k n c m).1 (n - 1) := by
  induction n generalizing c m with
  | zero => rfl
  | succ n ih =>
    rw [if_neg (Nat.succ_ne_zero n), Nat.add_sub_cancel, cbcEncrypt, block_append (length_aesE _ _)]
    exact ih (aesE k (xorBytes (m.take 16) c)) (m.drop 16)

theorem length_cbcEncrypt_chain (k : List Byte) (n : Nat) {c : List Byte} (hc : c.length = 16) (m : List Byte) :
    (cbcEncrypt k n c m).2.length = 16 := by
  induction n generalizing c m with
  | zero => exact hc
  | succ n ih =>
    rw [cbcEncrypt]
    exact ih (length_aesE k (xorBytes (m.take 16) c)) (m.drop 16)

/-- Encryption of m + n blocks is encryption of the first m, then of the next n under the chaining value left. -/
theorem cbcEncrypt_append (k : List Byte) (m n : Nat) (c : List Byte) {a : List Byte} (ha : a.length = 16 * m)
    (b : List Byte) : cbcEncrypt k (m + n) c (a ++ b) =
      ((cbcEncrypt k m c a).1 ++ (cbcEncrypt k n (cbcEncrypt k m c a).2 b).1,
        (cbcEncrypt k n (cbcEncrypt k m c a).2 b).2) := by
  induction m generalizing c a with
  | zero =>
    obtain rfl : a = [] := List.eq_nil_of_length_eq_zero ha
    rw [Nat.zero_add]; rfl
  | succ m ih =>
    have hrest : (a.drop 16).length = 16 * m := by rw [List.length_drop]; omega
    rw [Nat.add_right_comm, cbcEncrypt, List.take_append_of_le_length (by omega),
      List.drop_append_of_le_length (by omega), ih _ hrest]
    simp only [cbcEncrypt, List.append_assoc]

/-! ### CBC decryption (42_cipher R133) -/

theorem length_cbcDecrypt (k : List Byte) (n : Nat) {c m : List Byte} (hc : c.length = 16) (hm : m.length = 16 * n) :
    (cbcDecrypt k n c m).1.length = 16 * n := by
  induction n generalizing c m with
  | zero => rfl
  | succ n ih =>
    have hfirst : (m.take 16).length = 16 := by rw [List.length_take]; omega
    have hrest : (m.drop 16).length = 16 * n := by rw [List.length_drop]; omega
    rw [cbcDecrypt, List.length_append, length_xorBytes, length_aesD, hc, ih hfirst hrest]
    omega

/-- Each plaintext block is the decryption of its ciphertext block XORed with the ciphertext block before. -/
theorem block_cbcDecrypt (k : List Byte) {n j : Nat} (h : j < n) {c : List Byte} (hc : c.length = 16) {m : List Byte}
    (hm : m.length = 16 * n) : block (cbcDecrypt k n c m).1 j =
      xorBytes (aesD k (block m j)) (if j = 0 then c else block m (j - 1)) := by
  induction n generalizing c m j with
  | zero => exact absurd h (Nat.not_lt_zero j)
  | succ n ih =>
    have hfirst : (m.take 16).length = 16 := by rw [List.length_take]; omega
    have hrest : (m.drop 16).length = 16 * n := by rw [List.length_drop]; omega
    have hplain : (xorBytes (aesD k (m.take 16)) c).length = 16 := by rw [length_xorBytes, length_aesD, hc, Nat.min_self]
    rw [cbcDecrypt, block_append hplain, block_eq_ite m j]
    cases j with
    | zero => rfl
    | succ j =>
      simp only [Nat.succ_ne_zero, if_false, Nat.add_sub_cancel]
      rw [ih (Nat.lt_of_succ_lt_succ h) hfirst hrest, block_eq_ite m j]

/-- The chaining value that CBC decryption leaves is the last ciphertext block it read. -/
theorem cbcDecrypt_chain (k : List Byte) (n : Nat) (c m : List Byte) :
    (cbcDecrypt k n c m).2 = if n = 0 then c else block m (n - 1) := by
  induction n generalizing c m with
  | zero => rfl
  | succ n ih =>
    rw [if_neg (Nat.succ_ne_zero n), Nat.add_sub_cancel, cbcDecrypt, block_eq_ite m]
    exact ih _ _

theorem length_cbcDecrypt_chain (k : List Byte) (n : Nat) {c m : List Byte} (hc : c.length = 16)
    (hm : m.length = 16 * n) : (cbcDecrypt k n c m).2.length = 16 := by
  rw [cbcDecrypt_chain]
  split
  case isTrue => exact hc
  case isFalse => rw [block, List.length_take, List.length_drop]; omega

/-- Decryption of m + n blocks is decryption of the first m, then of the next n after the last ciphertext block read. -/
theorem cbcDecrypt_append (k : List Byte) (m n : Nat) (c : List Byte) {a : List Byte} (ha : a.length = 16 * m)
    (b : List Byte) : cbcDecrypt k (m + n) c (a ++ b) =
      ((cbcDecrypt k m c a).1 ++ (cbcDecrypt k n (cbcDecrypt k m c a).2 b).1,
        (cbcDecrypt k n (cbcDecrypt k m c a).2 b).2) := by
  induction m generalizing c a with
  | zero =>
    obtain rfl : a = [] := List.eq_nil_of_length_eq_zero ha
    rw [Nat.zero_add]; rfl
  | succ m ih =>
    have hrest : (a.drop 16).length = 16 * m := by rw [List.length_drop]; omega
    rw [Nat.add_right_comm, cbcDecrypt, List.take_append_of_le_length (by omega),
      List.drop_append_of_le_length (by omega), ih _ hrest]
    simp only [cbcDecrypt, List.append_assoc]

/-- CBC decryption from the same chaining value undoes CBC encryption (42_cipher R140). -/
theorem cbcDecrypt_cbcEncrypt {k : List Byte} (hk : k.length = 16) (n : Nat) {c m : List Byte} (hc : c.length = 16)
    (hm : m.length = 16 * n) : (cbcDecrypt k n c (cbcEncrypt k n c m).1).1 = m := by
  induction n generalizing c m with
  | zero => exact (List.eq_nil_of_length_eq_zero hm).symm
  | succ n ih =>
    have hfirst : (m.take 16).length = 16 := by rw [List.length_take]; omega
    have hrest : (m.drop 16).length = 16 * n := by rw [List.length_drop]; omega
    have hxor : (xorBytes (m.take 16) c).length = 16 := by rw [length_xorBytes, hfirst, hc, Nat.min_self]
    simp only [cbcEncrypt, cbcDecrypt]
    rw [List.take_left' (length_aesE _ _), List.drop_left' (length_aesE _ _),
      aesDecryptionInvertsEncryption k _ hk hxor, xorBytes_xorBytes_cancel (hfirst.trans hc.symm),
      ih (length_aesE _ _) hrest, List.take_append_drop]

/-! ### CTR (42_cipher R134) -/

theorem length_ctrStream (cfg : Config) (k : List Byte) {n : Nat} (ctr : List Byte) {m : List Byte}
    (hm : m.length ≤ 16 * n) : (ctrStream cfg k n ctr m).length = m.length := by
  induction n generalizing ctr m with
  | zero => exact (Nat.le_zero.mp hm).symm
  | succ n ih =>
    have hrest : (m.drop 16).length ≤ 16 * n := by rw [List.length_drop]; omega
    rw [ctrStream, List.length_append, length_xorBytes, length_aesE, ih _ hrest, List.length_take, List.length_drop]
    omega

/-- Byte i of the output is byte i of the data XORed with byte i mod 16 of the encrypted counter after i/16 advances. -/
theorem byteAt_ctrStream (cfg : Config) (k : List Byte) {n : Nat} (ctr : List Byte) {m : List Byte}
    (hm : m.length ≤ 16 * n) {i : Nat} (hi : i < m.length) :
    byteAt (ctrStream cfg k n ctr m) i =
      byteAt m i ^^^ byteAt (aesE k ((incCounter cfg)^[i / 16] ctr)) (i % 16) := by
  induction n generalizing ctr m i with
  | zero => omega
  | succ n ih =>
    have hfirst : (xorBytes (m.take 16) (aesE k ctr)).length = min 16 m.length := by
      rw [length_xorBytes, length_aesE, List.length_take]; omega
    rw [ctrStream, byteAt_append, hfirst]
    by_cases h16 : i < 16
    · rw [if_pos (by omega), byteAt_xorBytes (by rw [List.length_take]; omega) (by rwa [length_aesE]), byteAt_take h16,
        Nat.div_eq_of_lt h16, Nat.mod_eq_of_lt h16, Function.iterate_zero_apply]
    · obtain ⟨i, rfl⟩ : ∃ i', i = i' + 16 := ⟨i - 16, by omega⟩
      have hmin : min 16 m.length = 16 := by omega
      rw [if_neg (by omega), hmin, Nat.add_sub_cancel, ih _ (by rw [List.length_drop]; omega)
        (by rw [List.length_drop]; omega), byteAt_drop, Nat.add_comm 16 i, Nat.add_div_right i (by omega),
        Nat.add_mod_right, Function.iterate_succ_apply]

/-! ### Counters (42_cipher R136 to R138) -/

theorem os2ip_lt (s : List Byte) : os2ip s < 256 ^ s.length := by
  induction s with
  | nil => exact Nat.one_pos
  | cons b s ih =>
    have hb : b.toNat + 1 ≤ 256 := b.isLt
    rw [os2ip_cons, List.length_cons, Nat.pow_succ']
    calc b.toNat * 256 ^ s.length + os2ip s
      _ < (b.toNat + 1) * 256 ^ s.length := by rw [Nat.add_one_mul]; omega
      _ ≤ 256 * 256 ^ s.length := Nat.mul_le_mul_right _ hb

theorem incCounter_of_inc128 {cfg : Config} (h : cfg.increment = .inc128) (c : List Byte) :
    incCounter cfg c = be 16 ((os2ip c + 1) % 2 ^ 128) := by
  rw [incCounter, h]

/-- Under INC64 the last 8 bytes of a counter count, or the first 8, and the others are kept. -/
theorem incCounter_of_inc64 {cfg : Config} (h : cfg.increment = .inc64) {c : List Byte} (hc : c.length = 16) :
    (cfg.indexField = .hiAddr → incCounter cfg c = c.take 8 ++ be 8 ((os2ip (c.drop 8) + 1) % 2 ^ 64)) ∧
    (cfg.indexField = .loAddr → incCounter cfg c = be 8 ((os2ip (c.take 8) + 1) % 2 ^ 64) ++ c.drop 8) := by
  have hlast : (c.drop 8).take 8 = c.drop 8 := List.take_of_length_le (by rw [List.length_drop, hc])
  refine ⟨fun hf => ?_, fun hf => ?_⟩
  · simp only [incCounter, h, hf, setIndex, indexOf, field64, hlast]
  · simp only [incCounter, h, hf, setIndex, indexOf, field64, hlast, List.drop_zero]

theorem deriveCounter_hiAddr {a b : List Byte} (ha : a.length = 8) (hb : b.length = 8) (off : DWord) :
    deriveCounter .hiAddr (a ++ b) off = a ++ be 8 (os2ip b ||| ceilDiv off.toNat 16) := by
  rw [deriveCounter, setIndex, indexOf, field64, List.take_left' ha, List.drop_left' ha, List.take_of_length_le hb.le]

theorem deriveCounter_loAddr {a b : List Byte} (ha : a.length = 8) (hb : b.length = 8) (off : DWord) :
    deriveCounter .loAddr (a ++ b) off = be 8 (os2ip a ||| ceilDiv off.toNat 16) ++ b := by
  rw [deriveCounter, setIndex, indexOf, field64, List.drop_zero, List.take_left' ha, List.drop_left' ha,
    List.take_of_length_le hb.le]

/-- An 8-byte field holds its number ORed with a block index in full (42_cipher R137). -/
theorem os2ip_be_or_ceilDiv {a : List Byte} (ha : a.length = 8) (off : DWord) :
    os2ip (be 8 (os2ip a ||| ceilDiv off.toNat 16)) = os2ip a ||| ceilDiv off.toNat 16 := by
  have hfield : os2ip a < 2 ^ 64 := (os2ip_lt a).trans_eq (by rw [ha]; rfl)
  have hindex : ceilDiv off.toNat 16 < 2 ^ 64 := by have := off.isLt; rw [ceilDiv]; omega
  rw [os2ip_be]
  exact Nat.mod_eq_of_lt (Nat.or_lt_two_pow hfield hindex)

/-- The nonce and the index field are the two halves of a counter. -/
theorem exists_append_of_length_sixteen {c : List Byte} (hc : c.length = 16) :
    ∃ a b, c = a ++ b ∧ a.length = 8 ∧ b.length = 8 :=
  ⟨c.take 8, c.drop 8, (List.take_append_drop 8 c).symm, by rw [List.length_take, hc]; rfl,
    by rw [List.length_drop, hc]⟩

theorem length_deriveCounter (f : IndexField) {c : List Byte} (hc : c.length = 16) (off : DWord) :
    (deriveCounter f c off).length = 16 := by
  obtain ⟨a, b, rfl, ha, hb⟩ := exists_append_of_length_sixteen hc
  cases f
  case hiAddr => rw [deriveCounter_hiAddr ha hb, List.length_append, length_be, ha]
  case loAddr => rw [deriveCounter_loAddr ha hb, List.length_append, length_be, hb]

/-- The combine is an OR, so a second derivation with the same offset changes nothing (42_cipher R137). -/
theorem deriveCounter_idem (f : IndexField) {c : List Byte} (hc : c.length = 16) (off : DWord) :
    deriveCounter f (deriveCounter f c off) off = deriveCounter f c off := by
  obtain ⟨a, b, rfl, ha, hb⟩ := exists_append_of_length_sixteen hc
  cases f
  case hiAddr =>
    rw [deriveCounter_hiAddr ha hb, deriveCounter_hiAddr ha (length_be _ _), os2ip_be_or_ceilDiv hb, Nat.or_assoc,
      Nat.or_self]
  case loAddr =>
    rw [deriveCounter_loAddr ha hb, deriveCounter_loAddr (length_be _ _) hb, os2ip_be_or_ceilDiv ha, Nat.or_assoc,
      Nat.or_self]

end Sys2Proof.Machine
end

section
/-! PROOFS. The Block Cipher Engine's commands (42_cipher R132 to R140): which LEN they take, the bytes that they write,
and what a second command makes of them. -/

namespace Sys2Proof.Machine

/-! ### Reads and stores of DBUF and IV -/

/-- A data block is a block of any window read that reaches over it. -/
theorem State.dataBlock_eq_block (s : State) {j n : Nat} (h : j < n) :
    s.dataBlock j = block (s.window .dbuf (16 * n)) j := by
  obtain ⟨d, rfl⟩ : ∃ d, n = j + 1 + d := ⟨n - (j + 1), by omega⟩
  have hsplit : 16 * (j + 1 + d) = 16 * j + (16 + 16 * d) := by omega
  rw [block, State.window, hsplit, State.readBytes_add, List.drop_left' (State.length_readBytes _ _ _),
    State.readBytes_add, List.take_left' (State.length_readBytes _ _ _)]
  rfl

/-- Storing bytes as they are read from another state makes them read as there. -/
theorem State.readByte_storeBytes_readBytes (s u : State) (a n x : Nat) :
    (u.storeBytes a (s.readBytes a n)).readByte x = if a ≤ x ∧ x < a + n then s.readByte x else u.readByte x := by
  rw [State.readByte_storeBytes, State.length_readBytes]
  split
  case isTrue h =>
    have hindex : a + (x - a) = x := by omega
    exact (s.byteAt_readBytes (by omega) a).trans (congrArg s.readByte hindex)
  case isFalse => rfl

/-- A completion without an error, after stores: nothing but the completion fields and window bytes changes. -/
theorem State.completed_frame_and {s u : State} (h : u = { s with mem := u.mem }) {P : Prop} (hP : P) :
    s.CompletedAs (u.complete .none) .none ∧ s.SameHostSide (u.complete .none) ∧ s.SameHash (u.complete .none) ∧
      (u.complete .none).result = s.result ∧ (u.complete .none).dvalid = s.dvalid ∧
      (u.complete .none).draws = s.draws ∧ P := by
  rw [h]
  exact ⟨s.completedAs_complete _ (by rfl) .none, by constructor <;> rfl, by constructor <;> rfl, rfl, rfl, rfl, hP⟩

/-! ### The lengths (42_cipher R132 to R134) -/

theorem State.badCbcLength_iff (s : State) :
    s.badCbcLength = true ↔ s.cfg.dbufBytes < s.len.toNat ∨ s.len.toNat % 16 ≠ 0 := by
  rw [State.badCbcLength, Bool.or_eq_true, decide_eq_true_iff, decide_eq_true_iff, State.lenBytes]

theorem State.badCtrLength_iff (s : State) : s.badCtrLength = true ↔ s.cfg.dbufBytes < s.len.toNat :=
  decide_eq_true_iff

/-- Settles O38: the length check fails first, and the error completion changes nothing else. -/
theorem badLengthChangesNothing : Obligations.BadLengthChangesNothing := by
  intro s i h
  rw [← State.complete_of_ne_none (by decide)]
  rcases h with ⟨rfl | rfl, hbad⟩ | ⟨rfl, hbad⟩
  · exact if_pos (s.badCbcLength_iff.mpr hbad)
  · exact if_pos (s.badCbcLength_iff.mpr hbad)
  · exact if_pos (s.badCtrLength_iff.mpr hbad)

/-! ### The CBC commands (42_cipher R132, R133, R135) -/

/-- The type of a CBC mode: the output data and chaining value, from key, number of blocks, chaining value and data. -/
abbrev CbcFunction := List Byte → Nat → List Byte → List Byte → List Byte × List Byte

/-- Each CBC command with the function that it computes; `CbcMode.exec_eq` ties it to the model. -/
inductive CbcMode : Instr → CbcFunction → Prop where
  | encrypt : CbcMode .aesCbcEnc cbcEncrypt
  | decrypt : CbcMode .aesCbcDec cbcDecrypt

/-- What a CBC command leaves that computed the data r.1 and the chaining value r.2. -/
def State.cbcDone (r : List Byte × List Byte) (s : State) : State :=
  ((s.setWindow .dbuf r.1).setWindow .iv r.2).complete .none

section
variable {i : Instr} {f : CbcFunction}

theorem CbcMode.length_data (h : CbcMode i f) (k : List Byte) (n : Nat) {c m : List Byte} (hc : c.length = 16)
    (hm : m.length = 16 * n) : (f k n c m).1.length = 16 * n := by
  cases h
  case encrypt => exact length_cbcEncrypt k n c m
  case decrypt => exact length_cbcDecrypt k n hc hm

theorem CbcMode.length_chain (h : CbcMode i f) (k : List Byte) (n : Nat) {c m : List Byte} (hc : c.length = 16)
    (hm : m.length = 16 * n) : (f k n c m).2.length = 16 := by
  cases h
  case encrypt => exact length_cbcEncrypt_chain k n hc m
  case decrypt => exact length_cbcDecrypt_chain k n hc hm

theorem CbcMode.append (h : CbcMode i f) (k : List Byte) (m n : Nat) (c : List Byte) {a : List Byte}
    (ha : a.length = 16 * m) (b : List Byte) :
    f k (m + n) c (a ++ b) = ((f k m c a).1 ++ (f k n (f k m c a).2 b).1, (f k n (f k m c a).2 b).2) := by
  cases h
  case encrypt => exact cbcEncrypt_append k m n c ha b
  case decrypt => exact cbcDecrypt_append k m n c ha b

theorem CbcMode.exec_eq (h : CbcMode i f) {s : State} {n : Nat} (hn : s.len.toNat = 16 * n)
    (hfit : 16 * n ≤ s.cfg.dbufBytes) :
    exec i s = .next (s.cbcDone (f s.keyBytes n s.ivBytes (s.window .dbuf (16 * n)))) := by
  have hgood : ¬ s.badCbcLength = true := by rw [State.badCbcLength_iff]; omega
  have hblocks : s.lenBytes / 16 = n := by rw [State.lenBytes]; omega
  have hdata : s.dataBytes = s.window .dbuf (16 * n) := congrArg (s.window .dbuf) hn
  rw [← hdata, ← hblocks]
  cases h
  case encrypt => exact if_neg hgood
  case decrypt => exact if_neg hgood

/-- A CBC command on n blocks completes with the data and the chaining value that its function computes. -/
theorem CbcMode.exec_done (h : CbcMode i f) {s : State} {n : Nat} (hn : s.len.toNat = 16 * n)
    (hfit : 16 * n ≤ s.cfg.dbufBytes) :
    ∃ r, f s.keyBytes n s.ivBytes (s.window .dbuf (16 * n)) = r ∧ exec i s = .next (s.cbcDone r) ∧
      r.1.length = 16 * n ∧ r.2.length = 16 :=
  have hiv : s.ivBytes.length = 16 := length_window s .iv 16
  ⟨_, rfl, h.exec_eq hn hfit, h.length_data _ n hiv (length_window _ _ _), h.length_chain _ n hiv (length_window _ _ _)⟩

end

/-- Outside IV a CBC command stores the data and nothing else. -/
theorem State.readByte_cbcDone {r : List Byte × List Byte} (hr : r.2.length = 16) (s : State) {x : Nat}
    (hx : ¬ (0x050 ≤ x ∧ x < 0x060)) : (s.cbcDone r).readByte x = (s.setWindow .dbuf r.1).readByte x :=
  State.readByte_storeBytes_outside _ _ _ _ (by rw [hr]; simp only [Window.base]; omega)

theorem State.readByte_cbcDone_outside {r : List Byte × List Byte} (hr : r.2.length = 16) (s : State) {x : Nat}
    (hiv : ¬ (0x050 ≤ x ∧ x < 0x060)) (hdata : ¬ (0x1000 ≤ x ∧ x < 0x1000 + r.1.length)) :
    (s.cbcDone r).readByte x = s.readByte x :=
  (State.readByte_cbcDone hr s hiv).trans (s.readByte_storeBytes_outside _ _ _ (by simp only [Window.base]; omega))

theorem State.ivBytes_cbcDone {r : List Byte × List Byte} (hr : r.2.length = 16) (s : State) :
    (s.cbcDone r).ivBytes = r.2 :=
  State.window_setWindow _ .iv r.2 hr

theorem State.dbuf_cbcDone {r : List Byte × List Byte} (hr : r.2.length = 16) (s : State) {n : Nat}
    (hn : r.1.length = n) : (s.cbcDone r).window .dbuf n = r.1 :=
  (State.readBytes_storeBytes_outside _ _ _ _ _ (by rw [hr]; simp only [Window.base]; omega)).trans
    (s.window_setWindow .dbuf r.1 hn)

theorem State.keyBytes_cbcDone (r : List Byte × List Byte) (s : State) : (s.cbcDone r).keyBytes = s.keyBytes :=
  (State.readBytes_storeBytes_outside _ _ _ _ _ (by simp only [Window.base]; omega)).trans
    (s.readBytes_storeBytes_outside _ _ _ _ (by simp only [Window.base]; omega))

theorem State.dataBlock_cbcDone {r : List Byte × List Byte} {n : Nat} (hdata : r.1.length = 16 * n)
    (hchain : r.2.length = 16) (s : State) {j : Nat} (hj : j < n) : (s.cbcDone r).dataBlock j = block r.1 j := by
  rw [State.dataBlock_eq_block _ hj, State.dbuf_cbcDone hchain s hdata]

/-- Settles O34: the stored data are the blocks of the encryption, and the stored IV is its chaining value. -/
theorem cbcEncryptionChainsBlocks : Obligations.CbcEncryptionChainsBlocks := by
  refine ⟨decode_encode .aesCbcEnc, fun s hfit hwhole => ?_⟩
  obtain ⟨n, hn⟩ : ∃ n, s.len.toNat = 16 * n := ⟨s.len.toNat / 16, by omega⟩
  obtain ⟨r, hr, hexec, hdata, hchain⟩ := CbcMode.encrypt.exec_done hn (by omega)
  have hblocks : s.len.toNat / 16 = n := by omega
  have hnew (j : Nat) (hj : j < n) := State.dataBlock_cbcDone hdata hchain s hj
  refine ⟨s.cbcDone r, hexec, State.completed_frame_and rfl ⟨fun j hj => ?_, ?_, fun x hxiv hxdata => ?_⟩⟩
  · have hj' : j < n := hblocks ▸ hj
    rw [hnew j hj', hnew (j - 1) (by omega), s.dataBlock_eq_block hj', ← hr]
    exact block_cbcEncrypt s.keyBytes hj' s.ivBytes _
  · refine (State.ivBytes_cbcDone hchain s).trans ?_
    rw [hblocks, ← hr, cbcEncrypt_chain, hr]
    by_cases h0 : n = 0
    · rw [if_pos h0, if_pos (by omega)]; rfl
    · rw [if_neg h0, if_neg (by omega), hnew (n - 1) (by omega)]
  · exact State.readByte_cbcDone_outside hchain s hxiv (by rwa [hdata, ← hn])

/-- Settles O35: the stored data are the blocks of the decryption, and the stored IV is the last ciphertext block. -/
theorem cbcDecryptionChainsBlocks : Obligations.CbcDecryptionChainsBlocks := by
  refine ⟨decode_encode .aesCbcDec, fun s hfit hwhole => ?_⟩
  obtain ⟨n, hn⟩ : ∃ n, s.len.toNat = 16 * n := ⟨s.len.toNat / 16, by omega⟩
  obtain ⟨r, hr, hexec, hdata, hchain⟩ := CbcMode.decrypt.exec_done hn (by omega)
  have hblocks : s.len.toNat / 16 = n := by omega
  refine ⟨s.cbcDone r, hexec, State.completed_frame_and rfl ⟨fun j hj => ?_, ?_, fun x hxiv hxdata => ?_⟩⟩
  · have hj' : j < n := hblocks ▸ hj
    rw [State.dataBlock_cbcDone hdata hchain s hj', s.dataBlock_eq_block hj',
      s.dataBlock_eq_block (show j - 1 < n by omega), ← hr]
    exact block_cbcDecrypt s.keyBytes hj' (length_window s .iv 16) (length_window s .dbuf _)
  · refine (State.ivBytes_cbcDone hchain s).trans ?_
    rw [hblocks, ← hr, cbcDecrypt_chain]
    by_cases h0 : n = 0
    · rw [if_pos h0, if_pos (by omega)]; rfl
    · rw [if_neg h0, if_neg (by omega), s.dataBlock_eq_block (show n - 1 < n by omega)]
  · exact State.readByte_cbcDone_outside hchain s hxiv (by rwa [hdata, ← hn])

/-! ### Decryption after encryption (42_cipher R140) -/

/-- The operands of a decryption that follows an encryption, with the old IV loaded again. -/
theorem State.operands_reloadIv {r : List Byte × List Byte} {n : Nat} (hdata : r.1.length = 16 * n)
    (hchain : r.2.length = 16) (s : State) : ((s.cbcDone r).setWindow .iv s.ivBytes).keyBytes = s.keyBytes ∧
      ((s.cbcDone r).setWindow .iv s.ivBytes).ivBytes = s.ivBytes ∧
      ((s.cbcDone r).setWindow .iv s.ivBytes).window .dbuf (16 * n) = r.1 := by
  have hiv : s.ivBytes.length = 16 := length_window s .iv 16
  refine ⟨?_, State.window_setWindow _ .iv _ hiv, ?_⟩
  · exact (State.readBytes_storeBytes_outside _ _ _ _ _ (by simp only [Window.base]; omega)).trans
      (s.keyBytes_cbcDone r)
  · exact (State.readBytes_storeBytes_outside _ _ _ _ _ (by rw [hiv]; simp only [Window.base]; omega)).trans
      (s.dbuf_cbcDone hchain hdata)

theorem exec_aesCbcDec_after_aesCbcEnc (s : State) (hfit : s.len.toNat ≤ s.cfg.dbufBytes)
    (hwhole : s.len.toNat % 16 = 0) :
    ∃ t u, exec .aesCbcEnc s = .next t ∧ exec .aesCbcDec (t.setWindow .iv s.ivBytes) = .next u ∧
      t.errcode = .none ∧ u.errcode = .none ∧ ∀ x, ¬ (0x050 ≤ x ∧ x < 0x060) → u.readByte x = s.readByte x := by
  obtain ⟨n, hn⟩ : ∃ n, s.len.toNat = 16 * n := ⟨s.len.toNat / 16, by omega⟩
  have hfit' : 16 * n ≤ s.cfg.dbufBytes := hn ▸ hfit
  have hiv : s.ivBytes.length = 16 := length_window s .iv 16
  obtain ⟨r, hr, henc, hdata, hchain⟩ := CbcMode.encrypt.exec_done hn hfit'
  obtain ⟨hkey, hiv', hbuf⟩ := State.operands_reloadIv hdata hchain s
  obtain ⟨q, hq, hdec, -, hchain'⟩ :=
    CbcMode.decrypt.exec_done (s := (s.cbcDone r).setWindow .iv s.ivBytes) hn hfit'
  have hback : q.1 = s.window .dbuf (16 * n) := by
    rw [← hq, hkey, hiv', hbuf, ← hr]
    exact cbcDecrypt_cbcEncrypt (length_window s .key 16) n hiv (length_window s .dbuf _)
  refine ⟨s.cbcDone r, _, henc, hdec, rfl, rfl, fun x hx => ?_⟩
  rw [State.readByte_cbcDone hchain' _ hx, hback, State.setWindow, State.window, State.readByte_storeBytes_readBytes]
  split
  case isTrue => rfl
  case isFalse hout =>
    exact (State.readByte_storeBytes_outside _ _ _ _ (by rw [hiv]; simp only [Window.base]; omega)).trans
      (State.readByte_cbcDone_outside hchain s hx (by rwa [hdata]))

/-! ### A buffer in two parts (42_cipher R135) -/

/-- LEN loaded for n blocks. -/
def State.loadLen (n : Nat) (s : State) : State := { s with len := BitVec.ofNat 32 (16 * n) }

theorem CbcMode.exec_loadLen {i : Instr} {f : CbcFunction} (h : CbcMode i f) (s : State) {n : Nat}
    (hfit : 16 * n ≤ s.cfg.dbufBytes) (hlen : 16 * n < 2 ^ 32) :
    exec i (s.loadLen n) = .next ((s.loadLen n).cbcDone (f s.keyBytes n s.ivBytes (s.window .dbuf (16 * n)))) :=
  h.exec_eq (s := s.loadLen n) (by rw [State.loadLen, BitVec.toNat_ofNat, Nat.mod_eq_of_lt hlen]) hfit

/-- The operands of a CBC command whose data the host loads after another one's completion. -/
theorem State.operands_reloadData {r : List Byte × List Byte} (hchain : r.2.length = 16) (s : State) {b : List Byte}
    {n : Nat} (hb : b.length = n) : ((s.cbcDone r).setWindow .dbuf b).keyBytes = s.keyBytes ∧
      ((s.cbcDone r).setWindow .dbuf b).ivBytes = r.2 ∧ ((s.cbcDone r).setWindow .dbuf b).window .dbuf n = b := by
  refine ⟨?_, ?_, State.window_setWindow _ .dbuf b hb⟩
  · exact (State.readBytes_storeBytes_outside _ _ _ _ _ (.inl (by decide))).trans (s.keyBytes_cbcDone r)
  · exact (State.readBytes_storeBytes_outside _ _ _ _ _ (.inl (by decide))).trans (s.ivBytes_cbcDone hchain)

theorem State.dbuf_add (s : State) (m n : Nat) : s.window .dbuf (16 * (m + n)) =
    s.window .dbuf (16 * m) ++ s.readBytes (0x1000 + 16 * m) (16 * n) := by
  rw [Nat.mul_add]; exact s.readBytes_add _ _ _

/-- A CBC command over m + n blocks computes what one over the first m and, from the IV that it leaves, one over the
next n compute. -/
theorem CbcMode.exec_parts {i : Instr} {f : CbcFunction} (h : CbcMode i f) (s : State) {m n : Nat}
    (hfit : 16 * (m + n) ≤ s.cfg.dbufBytes) (hlen : 16 * (m + n) < 2 ^ 32) :
    ∃ p q : List Byte × List Byte, p.1.length = 16 * m ∧ p.2.length = 16 ∧ q.1.length = 16 * n ∧ q.2.length = 16 ∧
      exec i (s.loadLen (m + n)) = .next ((s.loadLen (m + n)).cbcDone (p.1 ++ q.1, q.2)) ∧
      exec i (s.loadLen m) = .next ((s.loadLen m).cbcDone p) ∧
      ∀ u : State, u = ((s.loadLen m).cbcDone p).setWindow .dbuf (s.readBytes (0x1000 + 16 * m) (16 * n)) →
        exec i (u.loadLen n) = .next ((u.loadLen n).cbcDone q) := by
  have hiv : s.ivBytes.length = 16 := length_window s .iv 16
  have hfirst : (s.window .dbuf (16 * m)).length = 16 * m := length_window _ _ _
  have hsecond : (s.readBytes (0x1000 + 16 * m) (16 * n)).length = 16 * n := State.length_readBytes _ _ _
  have hchain := h.length_chain s.keyBytes m hiv hfirst
  refine ⟨f s.keyBytes m s.ivBytes (s.window .dbuf (16 * m)), f s.keyBytes n _ (s.readBytes (0x1000 + 16 * m) (16 * n)),
    h.length_data _ m hiv hfirst, hchain, h.length_data _ n hchain hsecond, h.length_chain _ n hchain hsecond,
    ?_, h.exec_loadLen s (by omega) (by omega), fun u hu => ?_⟩
  · rw [h.exec_loadLen s hfit hlen, s.dbuf_add, h.append _ m n _ hfirst]
  · obtain ⟨hkey, hiv', hdata⟩ := State.operands_reloadData hchain (s.loadLen m) hsecond
    have hroom : 16 * n ≤ u.cfg.dbufBytes := by rw [hu]; exact le_trans (by omega) hfit
    rw [h.exec_loadLen u hroom (by omega), hu, hkey, hiv', hdata]; rfl

/-- Settles O40: the functions go on over a second part, and the commands store what the functions compute. -/
theorem cbcChainsAcrossCommands : Obligations.CbcChainsAcrossCommands := by
  refine ⟨fun s i m n hi hfit hlen => ?_, fun k c a b m n ha =>
    ⟨cbcEncrypt_append k m n c ha b, cbcDecrypt_append k m n c ha b⟩⟩
  obtain ⟨f, h⟩ : ∃ f, CbcMode i f := by
    rcases hi with rfl | rfl
    · exact ⟨_, .encrypt⟩
    · exact ⟨_, .decrypt⟩
  obtain ⟨p, q, hp1, hp2, hq1, hq2, hwhole, hfirst, hsecond⟩ := h.exec_parts s hfit hlen
  have hall : ((s.loadLen (m + n)).cbcDone (p.1 ++ q.1, q.2)).window .dbuf (16 * (m + n)) = p.1 ++ q.1 :=
    State.dbuf_cbcDone (r := (p.1 ++ q.1, q.2)) hq2 _ (by rw [List.length_append, hp1, hq1, Nat.mul_add])
  rw [State.dbuf_add] at hall
  obtain ⟨hall1, hall2⟩ := List.append_inj hall (by rw [length_window, hp1])
  refine ⟨_, _, _, hwhole, hfirst, hsecond _ rfl, rfl, rfl, rfl, ?_, ?_, ?_⟩
  · rw [hall1, State.dbuf_cbcDone hp2 _ hp1]
  · rw [hall2, State.dbuf_cbcDone hq2 _ hq1]
  · exact (State.ivBytes_cbcDone hq2 _).trans (State.ivBytes_cbcDone (r := (p.1 ++ q.1, q.2)) hq2 _).symm

/-! ### AES_CTR (42_cipher R134) -/

/-- Byte i of the keystream of AES_CTR (42_cipher R134). -/
def State.keystreamByte (s : State) (i : Nat) : Byte :=
  byteAt (aesE (s.window .key 16) ((incCounter s.cfg)^[i / 16]
    (deriveCounter s.cfg.indexField (s.window .iv 16) s.offset))) (i % 16)

/-- What AES_CTR leaves. -/
def State.ctrDone (s : State) : State := (s.setWindow .dbuf s.ctrResult).complete .none

theorem exec_aesCtr {s : State} (hfit : s.len.toNat ≤ s.cfg.dbufBytes) : exec .aesCtr s = .next s.ctrDone :=
  if_neg (by rw [State.badCtrLength_iff]; omega)

theorem State.length_dataBytes_le (s : State) : s.dataBytes.length ≤ 16 * ceilDiv s.lenBytes 16 := by
  rw [State.dataBytes, length_window, ceilDiv]; omega

theorem State.length_ctrResult (s : State) : s.ctrResult.length = s.len.toNat :=
  (length_ctrStream _ _ _ s.length_dataBytes_le).trans (length_window _ _ _)

/-- AES_CTR XORs the keystream onto the data. -/
theorem State.readByte_ctrDone (s : State) {i : Nat} (hi : i < s.len.toNat) :
    s.ctrDone.readByte (0x1000 + i) = s.readByte (0x1000 + i) ^^^ s.keystreamByte i := by
  have hdata : byteAt s.dataBytes i = s.readByte (0x1000 + i) := s.byteAt_readBytes hi 0x1000
  have hbyte : byteAt s.ctrResult i = byteAt s.dataBytes i ^^^ s.keystreamByte i :=
    byteAt_ctrStream _ _ _ s.length_dataBytes_le (by rwa [State.dataBytes, length_window])
  rw [State.ctrDone, State.readByte_complete, State.readByte_setWindow, s.length_ctrResult,
    if_pos (by simp only [Window.base]; omega), ← hdata, ← hbyte, byteAt]
  simp only [Window.base, Nat.add_sub_cancel_left]

theorem State.sameBytesOutside_ctrDone (s : State) : s.SameBytesOutside s.ctrDone 0x1000 s.len.toNat :=
  fun x hx => s.readByte_storeBytes_outside _ _ x (by rwa [s.length_ctrResult])

/-- KEY, IV and OFFSET, so the keystream too, are as before the command. -/
theorem State.keystreamByte_ctrDone (s : State) (i : Nat) : s.ctrDone.keystreamByte i = s.keystreamByte i := by
  have hkey : s.ctrDone.window .key 16 = s.window .key 16 :=
    s.readBytes_storeBytes_outside _ _ _ _ (.inl (by decide))
  have hiv : s.ctrDone.window .iv 16 = s.window .iv 16 :=
    s.readBytes_storeBytes_outside _ _ _ _ (.inl (by decide))
  rw [State.keystreamByte, hkey, hiv]; rfl

/-- Settles O36: the counters' advance by its cases, and the command byte by byte. -/
theorem ctrXorsTheKeystream : Obligations.CtrXorsTheKeystream :=
  ⟨decode_encode .aesCtr, fun _ x h => incCounter_of_inc128 h x, fun _ _ h hx => incCounter_of_inc64 h hx,
    fun s hfit => ⟨s.ctrDone, exec_aesCtr hfit,
      State.completed_frame_and rfl ⟨fun _ hi => s.readByte_ctrDone hi, s.sameBytesOutside_ctrDone⟩⟩⟩

/-- A second AES_CTR XORs the same keystream onto the data again (42_cipher R140). -/
theorem State.sameBytes_ctrDone_ctrDone (s : State) : s.SameBytes s.ctrDone.ctrDone := by
  intro x
  by_cases hx : x < 0x1000 ∨ 0x1000 + s.len.toNat ≤ x
  · exact (s.ctrDone.sameBytesOutside_ctrDone x hx).trans (s.sameBytesOutside_ctrDone x hx)
  · obtain ⟨i, rfl⟩ : ∃ i, x = 0x1000 + i := ⟨x - 0x1000, by omega⟩
    have hi : i < s.len.toNat := by omega
    rw [s.ctrDone.readByte_ctrDone hi, s.readByte_ctrDone hi, s.keystreamByte_ctrDone, BitVec.xor_assoc,
      BitVec.xor_self, BitVec.xor_zero]

/-- Settles O39: decryption undoes encryption block by block, and a second XOR cancels the first. -/
theorem cipherModesUndoThemselves : Obligations.CipherModesUndoThemselves :=
  ⟨exec_aesCbcDec_after_aesCbcEnc, fun s hfit =>
    ⟨s.ctrDone, s.ctrDone.ctrDone, exec_aesCtr hfit, exec_aesCtr (s := s.ctrDone) hfit, rfl, rfl,
      s.sameBytes_ctrDone_ctrDone, fun _ hi => s.readByte_ctrDone hi⟩⟩

/-! ### CTR_DERIVE (42_cipher R137, R139) -/

/-- What CTR_DERIVE leaves. -/
def State.ctrDerived (s : State) : State :=
  (s.setWindow .iv (deriveCounter s.cfg.indexField s.ivBytes s.offset)).complete .none

theorem exec_ctrDerive (s : State) : exec .ctrDerive s = .next s.ctrDerived := rfl

theorem State.ivBytes_ctrDerived (s : State) :
    s.ctrDerived.ivBytes = deriveCounter s.cfg.indexField s.ivBytes s.offset :=
  s.window_setWindow .iv _ (length_deriveCounter _ (length_window s .iv 16) _)

theorem State.readByte_ctrDerived_outside (s : State) {x : Nat} (hx : x < 0x050 ∨ 0x060 ≤ x) :
    s.ctrDerived.readByte x = s.readByte x :=
  s.readByte_storeBytes_outside _ _ x (by rwa [length_deriveCounter _ (c := s.ivBytes) (length_window s .iv 16)])

/-- IV is its two 8-byte halves. -/
theorem State.ivBytes_eq_append (s : State) : s.ivBytes = s.readBytes 0x050 8 ++ s.readBytes 0x058 8 :=
  s.readBytes_add 0x050 8 8

theorem State.readByte_eq_of_readBytes_eq {s t : State} {a n : Nat} (h : t.readBytes a n = s.readBytes a n) {x : Nat}
    (hx : a ≤ x ∧ x < a + n) : t.readByte x = s.readByte x := by
  obtain ⟨j, rfl⟩ : ∃ j, x = a + j := ⟨x - a, by omega⟩
  rw [← State.byteAt_readBytes (n := n) (by omega), h, State.byteAt_readBytes (by omega)]

theorem State.halves_ctrDerived (s : State) : s.ctrDerived.readBytes 0x050 8 ++ s.ctrDerived.readBytes 0x058 8 =
    deriveCounter s.cfg.indexField (s.readBytes 0x050 8 ++ s.readBytes 0x058 8) s.offset := by
  rw [← State.ivBytes_eq_append, ← State.ivBytes_eq_append, State.ivBytes_ctrDerived]

/-- With the nonce at b kept, CTR_DERIVE changes no byte outside the index field at a. -/
theorem State.sameBytesOutside_ctrDerived {s : State} {a b : Nat}
    (hab : (a = 0x050 ∧ b = 0x058) ∨ (a = 0x058 ∧ b = 0x050))
    (hnonce : s.ctrDerived.readBytes b 8 = s.readBytes b 8) : s.SameBytesOutside s.ctrDerived a 8 := by
  intro x hx
  by_cases hiv : x < 0x050 ∨ 0x060 ≤ x
  · exact s.readByte_ctrDerived_outside hiv
  · exact State.readByte_eq_of_readBytes_eq hnonce (by omega)

theorem State.ctrDerived_hiAddr {s : State} (h : s.cfg.indexField = .hiAddr) :
    s.SameBytesOutside s.ctrDerived 0x058 8 ∧
      os2ip (s.ctrDerived.readBytes 0x058 8) = os2ip (s.readBytes 0x058 8) ||| (s.offset.toNat + 15) / 16 := by
  have hnew := s.halves_ctrDerived
  rw [h, deriveCounter_hiAddr (State.length_readBytes _ _ _) (State.length_readBytes _ _ _)] at hnew
  obtain ⟨hnonce, hindex⟩ := List.append_inj hnew (by simp only [State.length_readBytes])
  refine ⟨State.sameBytesOutside_ctrDerived (.inr ⟨rfl, rfl⟩) hnonce, ?_⟩
  rw [hindex]; exact os2ip_be_or_ceilDiv (State.length_readBytes _ _ _) _

theorem State.ctrDerived_loAddr {s : State} (h : s.cfg.indexField = .loAddr) :
    s.SameBytesOutside s.ctrDerived 0x050 8 ∧
      os2ip (s.ctrDerived.readBytes 0x050 8) = os2ip (s.readBytes 0x050 8) ||| (s.offset.toNat + 15) / 16 := by
  have hnew := s.halves_ctrDerived
  rw [h, deriveCounter_loAddr (State.length_readBytes _ _ _) (State.length_readBytes _ _ _)] at hnew
  obtain ⟨hindex, hnonce⟩ := List.append_inj hnew (by rw [State.length_readBytes, length_be])
  refine ⟨State.sameBytesOutside_ctrDerived (.inl ⟨rfl, rfl⟩) hnonce, ?_⟩
  rw [hindex]; exact os2ip_be_or_ceilDiv (State.length_readBytes _ _ _) _

/-- Settles O37: the derivation writes the index field alone, and OR makes it idempotent. -/
theorem ctrDeriveOrsTheBlockIndex : Obligations.CtrDeriveOrsTheBlockIndex := by
  refine ⟨decode_encode .ctrDerive, fun s => ⟨s.ctrDerived, s.ctrDerived.ctrDerived, exec_ctrDerive s,
    exec_ctrDerive s.ctrDerived, ?_,
    State.completed_frame_and rfl ⟨State.ctrDerived_hiAddr, State.ctrDerived_loAddr⟩⟩⟩
  refine (State.ivBytes_ctrDerived _).trans (Eq.trans ?_ s.ivBytes_ctrDerived.symm)
  rw [s.ivBytes_ctrDerived]
  exact deriveCounter_idem _ (length_window s .iv 16) s.offset

end Sys2Proof.Machine
end

section
/-! PROOFS. The RSA modular exponentiation engine (43_rsa R150 to R158): square and multiply is the power, the checks of the
RSA-family commands in their order, the scrub that each of them ends with, and the number that an exponentiation leaves
in X. -/

namespace Sys2Proof.Machine

/-! ### Exponentiation (43_rsa R150) -/

/-- Squaring the base halves the exponent; an odd exponent's factor goes into the accumulator. -/
theorem pow_eq_pow_half (b e : Nat) : b ^ e = (if e % 2 = 1 then b else 1) * (b * b) ^ (e / 2) := by
  have hsplit : b ^ e = b ^ (e % 2) * (b * b) ^ (e / 2) := by
    rw [← pow_two, ← pow_mul, ← pow_add, Nat.mod_add_div]
  rw [hsplit]
  rcases Nat.mod_two_eq_zero_or_one e with h | h <;> simp [h]

/-- The engine's invariant: the accumulator times the base to the remaining exponent, mod n, is the result. -/
theorem modPowFrom_eq (n : Nat) {fuel b e acc : Nat} (he : e < 2 ^ fuel) (hacc : acc % n = acc) :
    modPowFrom n fuel b e acc = acc * b ^ e % n := by
  induction fuel generalizing b e acc with
  | zero =>
    obtain rfl : e = 0 := by omega
    rw [modPowFrom, pow_zero, mul_one, hacc]
  | succ fuel ih =>
    rw [modPowFrom]
    split
    case isTrue h0 => rw [h0, pow_zero, mul_one, hacc]
    case isFalse =>
      have hhalf : e / 2 < 2 ^ fuel := by omega
      have hsquare : ∀ a, a * (b * b % n) ^ (e / 2) % n = a * (b * b) ^ (e / 2) % n := fun a =>
        (((Nat.mod_modEq (b * b) n).pow (e / 2)).mul_left a)
      rw [ih hhalf (by split <;> simp [hacc]), hsquare, pow_eq_pow_half b e]
      split
      · rw [← mul_assoc]
        exact (Nat.mod_modEq (acc * b) n).mul_right _
      · rw [one_mul]

theorem rsaExp_eq (x n : Nat) {e : Nat} (he : e < 2 ^ 4096) : rsaExp x e n = x ^ e % n := by
  rw [rsaExp, modPowFrom_eq n he (Nat.mod_mod 1 n), Nat.mod_mul_mod, one_mul]

/-- Settles O41: the invariant of the engine's loop, from the accumulator 1 mod n. -/
theorem rsaExpIsExactPower : Obligations.RsaExpIsExactPower :=
  fun x _ n he => rsaExp_eq x n he

/-! ### The checks (43_rsa R152, R154; 44_pkcs1 R172) -/

theorem State.rsaChecks_of_invalid {s : State} (h : keySizeFor s.sigClass = .invalid) :
    s.rsaChecks = .error .unsupportedSigtype := by
  simp only [State.rsaChecks, h, KeySize.bytes]

theorem State.rsaChecks_of_badModulus {s : State} {k : Nat} (hk : (keySizeFor s.sigClass).bytes = some k)
    (h : s.readByte 0x400 = 0 ∨ s.modulus k % 2 = 0) : s.rsaChecks = .error .keyInit := by
  simp only [State.rsaChecks, hk, if_pos h]

theorem State.KeyUsable.rsaChecks {s : State} {k : Nat} (h : s.KeyUsable k) : s.rsaChecks = .ok k :=
  (s.rsaChecks_ok_iff k).mpr ⟨h.size, h.lead, by rw [h.odd]; exact one_ne_zero⟩

theorem State.KeyUsable.le {s : State} {k : Nat} (h : s.KeyUsable k) : k ≤ 512 := KeySize.bytes_le h.size

theorem State.rsaChecks_error_ne_none {s : State} {c : ErrCode} (h : s.rsaChecks = .error c) : c ≠ .none := by
  rcases State.rsaChecks_error h with ⟨rfl, -⟩ | ⟨rfl, -⟩ <;> nofun

theorem State.pkcsChecks_of_error {s : State} {c : ErrCode} (h : s.rsaChecks = .error c) :
    s.pkcsChecks = .error c := by
  rw [State.pkcsChecks, h]

/-- Check3 never fails once Check1 has passed. -/
theorem State.pkcsChecks_of_ok {s : State} {k : Nat} (h : s.rsaChecks = .ok k) :
    ∃ o, s.pkcsChecks = .ok o ∧ o.k = k := by
  have hid : pkcsHashIdFor s.sigClass ≠ .none := pkcsHashIdFor_of_size ((s.rsaChecks_ok_iff k).mp h).1
  rw [State.pkcsChecks, h]
  cases hh : pkcsHashIdFor s.sigClass with
  | none => exact absurd hh hid
  | sha1 => exact ⟨_, rfl, rfl⟩
  | sha256 => exact ⟨_, rfl, rfl⟩

/-! ### The completion that scrubs (43_rsa R153) -/

theorem State.scrubbed_completeScrubbed (u : State) (c : ErrCode) : (u.completeScrubbed c).Scrubbed where
  modulus j hj := by rw [State.readByte_completeScrubbed, if_pos (by omega)]
  exponent j hj := by rw [State.readByte_completeScrubbed, if_pos (by omega)]
  dvalid := rfl

theorem State.readByte_completeScrubbed_outside (u : State) (c : ErrCode) {x : Nat} (h : x < 0x400 ∨ 0x800 ≤ x) :
    (u.completeScrubbed c).readByte x = u.readByte x := by
  rw [State.readByte_completeScrubbed, if_neg (by omega)]

/-- What a scrubbing completion leaves, after changes of window bytes and RESULT alone. -/
theorem State.completeScrubbed_frame {s u : State} (h : u = { s with mem := u.mem, result := u.result }) (c : ErrCode) :
    s.CompletedAs (u.completeScrubbed c) c ∧ s.SameHostSide (u.completeScrubbed c) ∧
      s.SameHash (u.completeScrubbed c) ∧ (u.completeScrubbed c).result = u.result ∧
      (u.completeScrubbed c).draws = s.draws := by
  rw [h]
  exact ⟨s.completedAs_complete _ (by rfl) c, by constructor <;> rfl, by constructor <;> rfl, rfl, rfl⟩

/-- Settles O44: KEY_CLEAR is the scrubbing completion, and does nothing before it. -/
theorem keyClearZeroesTheKey : Obligations.KeyClearZeroesTheKey := by
  refine ⟨decode_encode .keyClear, fun s => ?_⟩
  obtain ⟨hdone, hhost, hhash, hresult, hdraws⟩ := State.completeScrubbed_frame (s := s) (u := s) rfl .none
  exact ⟨_, rfl, hdone, hhost, hhash, hresult, hdraws, s.scrubbed_completeScrubbed _,
    fun x hx => s.readByte_completeScrubbed_outside _ hx⟩

/-! ### The RSA-family commands (43_rsa R152 to R156; 44_pkcs1 R173, R174) -/

/-- The four commands that R153 names. -/
def RsaFamily (i : Instr) : Prop := i = .rsaPub ∨ i = .rsaPriv ∨ i = .pkcsVerify ∨ i = .pkcsSign

/-- The code of the first check that fails after Check1 and Check2 have passed with operand length k, NONE if none
does (60_exceptions R208); `exec_of_rsaChecks_ok` ties it to the model. -/
def State.codeAfterChecks (i : Instr) (k : Nat) (s : State) : ErrCode :=
  if (i = .rsaPriv ∨ i = .pkcsSign) ∧ s.dvalid = false then .signing
  else if (i = .rsaPub ∨ i = .rsaPriv) ∧ s.modulus k ≤ s.xValue k then .rsaInputRange
  else .none

section
variable {s : State} {k : Nat}

theorem State.codeAfterChecks_signing {i : Instr} (hi : i = .rsaPriv ∨ i = .pkcsSign) (hd : s.dvalid = false) :
    s.codeAfterChecks i k = .signing :=
  if_pos ⟨hi, hd⟩

theorem State.codeAfterChecks_rsaPub :
    s.codeAfterChecks .rsaPub k = if s.modulus k ≤ s.xValue k then .rsaInputRange else .none := by
  simp [State.codeAfterChecks]

theorem State.codeAfterChecks_rsaPriv (hd : s.dvalid = true) :
    s.codeAfterChecks .rsaPriv k = if s.modulus k ≤ s.xValue k then .rsaInputRange else .none := by
  simp [State.codeAfterChecks, hd]

theorem State.codeAfterChecks_pkcsVerify : s.codeAfterChecks .pkcsVerify k = .none := by
  simp [State.codeAfterChecks]

theorem State.codeAfterChecks_pkcsSign (hd : s.dvalid = true) : s.codeAfterChecks .pkcsSign k = .none := by
  simp [State.codeAfterChecks, hd]

end

/-- The code that an RSA-family command completes with; `exec_rsaFamily` ties it to the model. -/
def State.rsaFamilyCode (i : Instr) (s : State) : ErrCode :=
  match s.rsaChecks with
  | .error c => c
  | .ok k => s.codeAfterChecks i k

theorem State.rsaFamilyCode_of_error {s : State} {c : ErrCode} (h : s.rsaChecks = .error c) {i : Instr} :
    s.rsaFamilyCode i = c := by
  rw [State.rsaFamilyCode, h]

theorem State.rsaFamilyCode_of_ok {s : State} {k : Nat} (h : s.rsaChecks = .ok k) {i : Instr} :
    s.rsaFamilyCode i = s.codeAfterChecks i k := by
  rw [State.rsaFamilyCode, h]

/-- u is s as an RSA-family command that completes with this code leaves it before the scrub. -/
inductive State.BeforeScrub (s : State) : Instr → ErrCode → State → Prop where
  | failed {i : Instr} {c : ErrCode} : i ≠ .pkcsVerify → c ≠ .none → BeforeScrub s i c s
  | verified {r : Bool} {c : ErrCode} : (c ≠ .none → r = false) → BeforeScrub s .pkcsVerify c { s with result := r }
  | stored {i : Instr} {bs : List Byte} : i ≠ .pkcsVerify → bs.length ≤ 512 →
      BeforeScrub s i .none (s.setWindow .x bs)

section
variable {s u : State} {i : Instr} {c : ErrCode}

theorem State.BeforeScrub.frame (h : s.BeforeScrub i c u) : u = { s with mem := u.mem, result := u.result } := by
  cases h <;> rfl

theorem State.BeforeScrub.readByte_outside (h : s.BeforeScrub i c u) {x : Nat} (hx : x < 0x800 ∨ 0xA00 ≤ x) :
    u.readByte x = s.readByte x := by
  cases h with
  | failed => rfl
  | verified => rfl
  | stored _ hl => exact s.readByte_storeBytes_outside _ _ _ (by simp only [Window.base]; omega)

theorem State.BeforeScrub.sameBytes (h : s.BeforeScrub i c u) (hc : i = .pkcsVerify ∨ c ≠ .none) : s.SameBytes u := by
  cases h with
  | failed => exact fun _ => rfl
  | verified => exact fun _ => rfl
  | stored hi => exact (hc.elim hi (absurd rfl)).elim

theorem State.BeforeScrub.result_eq (h : s.BeforeScrub i c u) (hi : i ≠ .pkcsVerify) : u.result = s.result := by
  cases h with
  | failed => rfl
  | verified => exact absurd rfl hi
  | stored => rfl

theorem State.BeforeScrub.result_eq_false (h : s.BeforeScrub i c u) (hi : i = .pkcsVerify) (hc : c ≠ .none) :
    u.result = false := by
  cases h with
  | failed hne => exact absurd hi hne
  | verified hr => exact hr hc
  | stored => exact absurd rfl hc

theorem rawExp_beforeScrub (hi : i ≠ .pkcsVerify) {k : Nat} (hk : k ≤ 512) (e : Nat) :
    ∃ u, rawExp k e s = u.completeScrubbed (if s.modulus k ≤ s.xValue k then .rsaInputRange else .none) ∧
      s.BeforeScrub i (if s.modulus k ≤ s.xValue k then .rsaInputRange else .none) u := by
  unfold rawExp
  split
  · exact ⟨_, rfl, .failed hi nofun⟩
  · exact ⟨_, rfl, .stored hi (by rwa [length_i2osp])⟩

/-- Check1 and Check2 come first in each of the four commands. -/
theorem exec_of_rsaChecks_error (hi : RsaFamily i) (h : s.rsaChecks = .error c) :
    ∃ u, exec i s = .next (u.completeScrubbed c) ∧ s.BeforeScrub i c u := by
  have hne := State.rsaChecks_error_ne_none h
  have hp := State.pkcsChecks_of_error h
  rcases hi with rfl | rfl | rfl | rfl
  · exact ⟨s, by rw [exec, execRsaPub, h], .failed nofun hne⟩
  · exact ⟨s, by rw [exec, execRsaPriv, h], .failed nofun hne⟩
  · exact ⟨{ s with result := false }, by rw [exec, execPkcsVerify, hp], .verified fun _ => rfl⟩
  · exact ⟨s, by rw [exec, execPkcsSign, hp], .failed nofun hne⟩

theorem exec_pkcsSign_of_checks {o : PkcsOperands} (ho : s.pkcsChecks = .ok o) (hd : s.dvalid = true) :
    exec .pkcsSign s = .next ((s.setWindow .x (i2osp (rsaExp (os2ip (encodedMessage o.k o.hid o.digest))
      (s.exponent o.k) (s.modulus o.k)) o.k)).completeScrubbed .none) := by
  simp only [exec, execPkcsSign, ho, hd, if_true]

/-- The checks that come after Check1 and Check2, and what each of the four commands stores when they pass. -/
theorem exec_of_rsaChecks_ok (hi : RsaFamily i) {k : Nat} (h : s.rsaChecks = .ok k) :
    ∃ u, exec i s = .next (u.completeScrubbed (s.codeAfterChecks i k)) ∧
      s.BeforeScrub i (s.codeAfterChecks i k) u := by
  have hk := State.rsaChecks_le h
  obtain ⟨o, ho, hok⟩ := State.pkcsChecks_of_ok h
  rcases hi with rfl | rfl | rfl | rfl
  case inl =>
    rw [State.codeAfterChecks_rsaPub]
    simpa [exec, execRsaPub, h] using rawExp_beforeScrub (s := s) (i := .rsaPub) nofun hk ePub
  case inr.inl =>
    cases hd : s.dvalid with
    | false =>
      rw [State.codeAfterChecks_signing (.inl rfl) hd]
      exact ⟨s, by simp [exec, execRsaPriv, h, hd], .failed nofun nofun⟩
    | true =>
      rw [State.codeAfterChecks_rsaPriv hd]
      simpa [exec, execRsaPriv, h, hd] using
        rawExp_beforeScrub (s := s) (i := .rsaPriv) nofun hk (s.exponent k)
  case inr.inr.inl =>
    rw [State.codeAfterChecks_pkcsVerify]
    exact ⟨_, by rw [exec, execPkcsVerify, ho], .verified fun hc => absurd rfl hc⟩
  case inr.inr.inr =>
    cases hd : s.dvalid with
    | false =>
      rw [State.codeAfterChecks_signing (.inr rfl) hd]
      exact ⟨s, by simp [exec, execPkcsSign, ho, hd], .failed nofun nofun⟩
    | true =>
      rw [State.codeAfterChecks_pkcsSign hd]
      exact ⟨_, exec_pkcsSign_of_checks ho hd, .stored nofun (by rwa [length_i2osp, hok])⟩

/-- What each of the four commands does: a change of X or RESULT at most, then a scrubbing completion. -/
theorem exec_rsaFamily (hi : RsaFamily i) (s : State) :
    ∃ u, exec i s = .next (u.completeScrubbed (s.rsaFamilyCode i)) ∧ s.BeforeScrub i (s.rsaFamilyCode i) u := by
  cases h : s.rsaChecks with
  | error c => rw [State.rsaFamilyCode_of_error h]; exact exec_of_rsaChecks_error hi h
  | ok k => rw [State.rsaFamilyCode_of_ok h]; exact exec_of_rsaChecks_ok hi h

end

/-- Settles O45: the four commands end in a scrubbing completion, before which only X or RESULT may have changed. -/
theorem rsaFamilyScrubsOnEveryOutcome : Obligations.RsaFamilyScrubsOnEveryOutcome := by
  intro s i hi
  obtain ⟨u, hexec, hu⟩ := exec_rsaFamily hi s
  obtain ⟨-, hhost, hhash, -, -⟩ := State.completeScrubbed_frame hu.frame (s.rsaFamilyCode i)
  refine ⟨_, hexec, u.scrubbed_completeScrubbed _, hhost, hhash, fun x hx => ?_, fun hc x hx => ?_⟩
  · rw [u.readByte_completeScrubbed_outside _ (by omega), hu.readByte_outside (by omega)]
  · rw [u.readByte_completeScrubbed_outside _ (.inr hx), hu.sameBytes hc]

/-- Settles O46: the code is that of the first failing check, and a command that completes with one stores nothing. -/
theorem rsaFamilyReportsTheFirstFailingCheck : Obligations.RsaFamilyReportsTheFirstFailingCheck := by
  intro s i hi
  obtain ⟨u, hexec, hu⟩ := exec_rsaFamily hi s
  obtain ⟨hdone, -, -, hresult, -⟩ := State.completeScrubbed_frame hu.frame (s.rsaFamilyCode i)
  refine ⟨_, _, hexec, hdone, fun hinv => ?_, fun k hk => ⟨fun hbad => ?_, fun hkey => ?_⟩,
    fun hc => ⟨fun x hx => ?_, fun hv => ?_⟩, fun hv => ?_⟩
  · exact State.rsaFamilyCode_of_error (State.rsaChecks_of_invalid hinv)
  · exact State.rsaFamilyCode_of_error (State.rsaChecks_of_badModulus hk hbad)
  · rw [State.rsaFamilyCode_of_ok hkey.rsaChecks]
    refine ⟨State.codeAfterChecks_signing, ?_, ?_⟩
    · rintro (rfl | ⟨rfl, hd⟩) hrange
      · rw [State.codeAfterChecks_rsaPub, if_pos hrange]
      · rw [State.codeAfterChecks_rsaPriv hd, if_pos hrange]
    · rintro (rfl | ⟨rfl, hd⟩)
      · exact State.codeAfterChecks_pkcsVerify
      · exact State.codeAfterChecks_pkcsSign hd
  · rw [u.readByte_completeScrubbed_outside _ (.inr hx), hu.sameBytes (.inr hc)]
  · exact hresult.trans (hu.result_eq_false hv hc)
  · exact hresult.trans (hu.result_eq hv)

/-! ### The number an exponentiation leaves (43_rsa R155, R156) -/

/-- What RSA_PUB and RSA_PRIV leave when all their checks pass: X^e mod N in X[0..k), and the scrub. -/
def State.powered (k e : Nat) (s : State) : State :=
  (s.setWindow .x (i2osp (s.xValue k ^ e % s.modulus k) k)).completeScrubbed .none

theorem State.os2ip_window_lt (s : State) (w : Window) (k : Nat) : os2ip (s.window w k) < 256 ^ k := by
  simpa using os2ip_lt (s.window w k)

/-- Every exponent that a window holds is within the engine's bound (log 16). -/
theorem State.exponent_lt (s : State) {k : Nat} (hk : k ≤ 512) : s.exponent k < 2 ^ 4096 := by
  have hbits : (256 : Nat) ^ k = 2 ^ (8 * k) := by rw [pow_mul]; norm_num
  have hlt : s.exponent k < 2 ^ (8 * k) := hbits ▸ s.os2ip_window_lt .d k
  exact lt_of_lt_of_le hlt (pow_le_pow_right₀ one_le_two (by omega))

theorem ePub_lt : ePub < 2 ^ 4096 :=
  have hlt : ePub < 2 ^ 17 := by decide
  lt_of_lt_of_le hlt (pow_le_pow_right₀ one_le_two (by decide))

theorem rawExp_eq_powered {s : State} {k e : Nat} (hx : s.xValue k < s.modulus k) (he : e < 2 ^ 4096) :
    rawExp k e s = s.powered k e := by
  rw [rawExp, if_neg (Nat.not_le.mpr hx), rsaExp_eq _ _ he, State.powered]

theorem exec_rsaPub {s : State} {k : Nat} (hkey : s.KeyUsable k) (hx : s.xValue k < s.modulus k) :
    exec .rsaPub s = .next (s.powered k 65537) := by
  simp only [exec, execRsaPub, hkey.rsaChecks]
  rw [rawExp_eq_powered hx ePub_lt, ePub]

theorem exec_rsaPriv {s : State} {k : Nat} (hkey : s.KeyUsable k) (hd : s.dvalid = true)
    (hx : s.xValue k < s.modulus k) : exec .rsaPriv s = .next (s.powered k (s.exponent k)) := by
  simp only [exec, execRsaPriv, hkey.rsaChecks, hd, if_true]
  rw [rawExp_eq_powered hx (s.exponent_lt hkey.le)]

theorem State.xValue_powered {s : State} {k : Nat} (e : Nat) (hx : s.xValue k < s.modulus k) :
    (s.powered k e).xValue k = s.xValue k ^ e % s.modulus k := by
  have hlt : s.xValue k ^ e % s.modulus k < 256 ^ k := (Nat.mod_lt _ (by omega)).trans (s.os2ip_window_lt .n k)
  have hwindow : (s.powered k e).window .x k = i2osp (s.xValue k ^ e % s.modulus k) k :=
    (State.readBytes_congr fun j _ => State.readByte_completeScrubbed_outside _ _
      (by simp only [Window.base]; omega)).trans (s.window_setWindow .x _ (length_i2osp _ _))
  rw [State.xValue, hwindow, i2osp, os2ip_be, Nat.mod_eq_of_lt hlt]

theorem State.sigClass_powered (s : State) (k e : Nat) : (s.powered k e).sigClass = s.sigClass := by
  simp only [State.sigClass, State.powered, State.completeScrubbed_eq, State.complete_cfg, State.complete_tag,
    State.scrub_cfg, State.scrub_tag, State.setWindow_cfg, State.setWindow_tag]

theorem State.readByte_powered_outside (s : State) (k e : Nat) {x : Nat} (hx : x < 0x400 ∨ 0x800 + k ≤ x) :
    (s.powered k e).readByte x = s.readByte x := by
  rw [State.powered, State.readByte_completeScrubbed_outside _ _ (by omega)]
  exact s.readByte_storeBytes_outside _ _ _ (by rw [length_i2osp]; simp only [Window.base]; omega)

/-- The whole effect of an exponentiation, said once for both exponents. -/
theorem State.powered_spec {s : State} {k : Nat} (e : Nat) (hx : s.xValue k < s.modulus k) :
    s.CompletedAs (s.powered k e) .none ∧ s.SameHostSide (s.powered k e) ∧ s.SameHash (s.powered k e) ∧
      (s.powered k e).result = s.result ∧ (s.powered k e).draws = s.draws ∧
      (s.powered k e).xValue k = s.xValue k ^ e % s.modulus k ∧ (s.powered k e).Scrubbed ∧
      (∀ x, x < 0x400 ∨ 0x800 + k ≤ x → (s.powered k e).readByte x = s.readByte x) := by
  have hvalue := State.xValue_powered e hx
  have houtside := fun x => s.readByte_powered_outside k e (x := x)
  unfold State.powered at hvalue houtside ⊢
  obtain ⟨hdone, hhost, hhash, hresult, hdraws⟩ := State.completeScrubbed_frame (s := s)
    (u := s.setWindow .x (i2osp (s.xValue k ^ e % s.modulus k) k)) rfl .none
  exact ⟨hdone, hhost, hhash, hresult, hdraws, hvalue, State.scrubbed_completeScrubbed _ _, houtside⟩

/-- Settles O42: RSA_PUB raises to 65537. -/
theorem rsaPubRaisesToThePublicExponent : Obligations.RsaPubRaisesToThePublicExponent :=
  ⟨decode_encode .rsaPub, fun _ _ hkey hx => ⟨_, exec_rsaPub hkey hx, State.powered_spec 65537 hx⟩⟩

/-- Settles O43: RSA_PRIV raises to the supplied exponent, which is within the engine's bound. -/
theorem rsaPrivRaisesToThePrivateExponent : Obligations.RsaPrivRaisesToThePrivateExponent :=
  ⟨decode_encode .rsaPriv, fun s k hkey hd hx =>
    ⟨_, exec_rsaPriv hkey hd hx, State.powered_spec (s.exponent k) hx⟩⟩

/-! ### RSA_PUB after RSA_PRIV (43_rsa R158) -/

theorem State.xValue_reloadN (t : State) {bs : List Byte} (hl : bs.length = 512) (k : Nat) :
    (t.setWindow .n bs).xValue k = t.xValue k :=
  congrArg os2ip (t.readBytes_storeBytes_outside _ _ _ _ (by simp only [Window.base]; omega))

theorem State.modulus_reloadN (s t : State) {k : Nat} (hk : k ≤ 512) :
    (t.setWindow .n (s.window .n 512)).modulus k = s.modulus k :=
  congrArg os2ip (State.readBytes_congr fun j _ =>
    (State.readByte_storeBytes_readBytes s t 0x400 512 _).trans (if_pos (by simp only [Window.base]; omega)))

/-- A key is usable again once N is reloaded in a state with the same TAG and tag map. -/
theorem State.KeyUsable.reloadN {s t : State} {k : Nat} (h : s.KeyUsable k) (ht : t.sigClass = s.sigClass) :
    (t.setWindow .n (s.window .n 512)).KeyUsable k where
  size := (congrArg (fun c => (keySizeFor c).bytes) ht).trans h.size
  lead := by
    have hread := State.readByte_storeBytes_readBytes s t 0x400 512 0x400
    rw [if_pos (by omega)] at hread
    exact hread ▸ h.lead
  odd := by rw [State.modulus_reloadN s t h.le, h.odd]

/-- The exponents of two powers mod n, one of the other, multiply. -/
theorem pow_mod_pow_mod (x d e n : Nat) : (x ^ d % n) ^ e % n = x ^ (e * d) % n := by
  rw [← Nat.pow_mod, ← pow_mul, Nat.mul_comm]

/-- RSA_PUB once N is reloaded raises the number that t holds in X. -/
theorem exec_rsaPub_reloadN {s t : State} {k : Nat} (hkey : s.KeyUsable k) (ht : t.sigClass = s.sigClass)
    (hx : t.xValue k < s.modulus k) :
    ∃ u, exec .rsaPub (t.setWindow .n (s.window .n 512)) = .next u ∧ u.errcode = .none ∧
      u.xValue k = t.xValue k ^ 65537 % s.modulus k := by
  have hmod := s.modulus_reloadN t hkey.le
  have hval := t.xValue_reloadN (length_window s .n 512) k
  have hrange : (t.setWindow .n (s.window .n 512)).xValue k < (t.setWindow .n (s.window .n 512)).modulus k := by
    rwa [hval, hmod]
  exact ⟨_, exec_rsaPub (hkey.reloadN ht) hrange, rfl, by rw [State.xValue_powered _ hrange, hval, hmod]⟩

/-- Settles O47: RSA_PUB raises X^D mod N to 65537 under the modulus reloaded, and the exponents multiply. -/
theorem privateThenPublicRestoresX : Obligations.PrivateThenPublicRestoresX := by
  intro s k hkey hd hx hpair
  have hval := State.xValue_powered (s.exponent k) hx
  have hlt : s.xValue k ^ s.exponent k % s.modulus k < s.modulus k := Nat.mod_lt _ (by omega)
  obtain ⟨u, hpub, herr, hu⟩ := exec_rsaPub_reloadN hkey (s.sigClass_powered k (s.exponent k)) (by rwa [hval])
  exact ⟨_, u, exec_rsaPriv hkey hd hx, hpub, rfl, herr, by rw [hu, hval, pow_mod_pow_mod, hpair]⟩

end Sys2Proof.Machine
end

section
/-! PROOFS. PKCS#1 v1.5 (44_pkcs1 R170 to R176): the shape of the encoded message and that it is below N, what the
verifier compares and the signer stores, that a signature verifies, and that with one bit flipped it does not. -/

namespace Sys2Proof.Machine

/-! ### Byte strings and their numbers (00_scope R8) -/

/-- Strings of one length with the same number are the same string. -/
theorem os2ip_injective {s t : List Byte} (hl : s.length = t.length) (h : os2ip s = os2ip t) : s = t := by
  induction s generalizing t with
  | nil => exact (List.eq_nil_of_length_eq_zero hl.symm).symm
  | cons b s ih =>
    cases t with
    | nil => cases hl
    | cons c t =>
      have hlen : s.length = t.length := Nat.succ.inj hl
      have hs := os2ip_lt s
      have ht := os2ip_lt t
      rw [os2ip_cons, os2ip_cons, ← hlen] at h
      rw [← hlen] at ht
      have hhead : b.toNat = c.toNat := by
        have hdiv := congrArg (· / 256 ^ s.length) h
        simpa [Nat.mul_comm _ (256 ^ s.length), Nat.mul_add_div, Nat.div_eq_of_lt, hs, ht] using hdiv
      rw [hhead] at h
      rw [BitVec.eq_of_toNat_eq hhead, ih hlen (Nat.add_left_cancel h)]

/-- A number that fits k bytes is written as the string s exactly if it is the number of s. -/
theorem i2osp_eq_iff {x k : Nat} (hx : x < 256 ^ k) {s : List Byte} (hs : s.length = k) :
    i2osp x k = s ↔ x = os2ip s := by
  have hnumber : os2ip (i2osp x k) = x := (os2ip_be k x).trans (Nat.mod_eq_of_lt hx)
  constructor
  · rintro rfl; exact hnumber.symm
  · rintro rfl; exact os2ip_injective ((length_i2osp _ k).trans hs.symm) hnumber

/-! ### A usable key (43_rsa R151, R152) -/

theorem KeySize.le_bytes {z : KeySize} {k : Nat} (h : z.bytes = some k) : 256 ≤ k := by
  cases z <;> simp [KeySize.bytes] at h <;> omega

section
variable {s : State} {k : Nat}

theorem State.KeyUsable.le_size (h : s.KeyUsable k) : 256 ≤ k := KeySize.le_bytes h.size

/-- N takes all its k bytes, because N[0] is not zero. -/
theorem State.KeyUsable.le_modulus (h : s.KeyUsable k) : 256 ^ (k - 1) ≤ s.modulus k := by
  have hk := h.le_size
  obtain ⟨m, rfl⟩ : ∃ m, k = 1 + m := ⟨k - 1, by omega⟩
  have hlead : 0 < (s.readByte 0x400).toNat := BitVec.toNat_pos_of_ne_zero h.lead
  have hsplit : s.window .n (1 + m) = s.readByte 0x400 :: s.readBytes 0x401 m := s.readBytes_add 0x400 1 m
  rw [State.modulus, hsplit, os2ip_cons, State.length_readBytes, Nat.add_sub_cancel_left]
  exact Nat.le_add_right_of_le (Nat.le_mul_of_pos_left _ hlead)

theorem State.KeyUsable.modulus_pos (h : s.KeyUsable k) : 0 < s.modulus k :=
  lt_of_lt_of_le (by positivity) h.le_modulus

/-- A remainder mod N fits the k bytes that it is written to. -/
theorem State.KeyUsable.mod_lt (h : s.KeyUsable k) (x : Nat) : x % s.modulus k < 256 ^ k :=
  (Nat.mod_lt x h.modulus_pos).trans (s.os2ip_window_lt .n k)

end

/-! ### The encoded message (44_pkcs1 R170, R171) -/

/-- The number of FF bytes in the encoded message of a class; `State.currentEM_eq` ties it to the model. -/
def padLength (c : SigClass) (k : Nat) : Nat :=
  k - 3 - ((digestInfo (pkcsHashIdFor c)).length + digestLengthFor c)

/-- T = PFX(hid) || h takes at most the 51 bytes of SHA-256 (R171). -/
theorem length_digestInfo_add_le (c : SigClass) : (digestInfo (pkcsHashIdFor c)).length + digestLengthFor c ≤ 51 := by
  cases c <;> decide

theorem digestLengthFor_of_sha1 {c : SigClass} (h : pkcsHashIdFor c = .sha1) : digestLengthFor c = 20 := by
  cases c <;> cases h <;> rfl

theorem digestLengthFor_of_sha256 {c : SigClass} (h : pkcsHashIdFor c = .sha256) : digestLengthFor c = 32 := by
  cases c <;> cases h <;> rfl

theorem digestLengthFor_le (c : SigClass) : digestLengthFor c ≤ 32 := by cases c <;> decide

theorem State.currentEM_eq (s : State) (k : Nat) :
    s.currentEM k = [0x00, 0x01] ++ List.replicate (padLength s.sigClass k) 0xFF ++ [0x00] ++
      digestInfo (pkcsHashIdFor s.sigClass) ++ s.readBytes 0x060 (digestLengthFor s.sigClass) := by
  rw [State.currentEM, encodedMessage, ← List.append_assoc, List.length_append, length_window]
  rfl

section
variable {s : State} {k : Nat}

theorem State.KeyUsable.le_padLength (h : s.KeyUsable k) : 8 ≤ padLength s.sigClass k := by
  have hk := h.le_size
  have hT := length_digestInfo_add_le s.sigClass
  rw [padLength]
  omega

theorem State.KeyUsable.length_currentEM (h : s.KeyUsable k) : (s.currentEM k).length = k := by
  have hk := h.le_size
  have hT := length_digestInfo_add_le s.sigClass
  simp only [State.currentEM_eq, List.length_append, List.length_replicate, List.length_cons, List.length_nil,
    State.length_readBytes, padLength]
  omega

/-- The first byte of EM is zero and that of N is not. -/
theorem State.KeyUsable.os2ip_currentEM_lt (h : s.KeyUsable k) : os2ip (s.currentEM k) < s.modulus k := by
  have hcons : s.currentEM k = 0x00#8 :: (s.currentEM k).tail := rfl
  have htail : (s.currentEM k).tail.length = k - 1 := by rw [List.length_tail, h.length_currentEM]
  calc os2ip (s.currentEM k)
    _ = os2ip (s.currentEM k).tail := by rw [hcons, os2ip_cons]; simp
    _ < 256 ^ (k - 1) := htail ▸ os2ip_lt _
    _ ≤ s.modulus k := h.le_modulus

/-- The encoded message is of TAG, the tag map and DIGEST alone. -/
theorem State.currentEM_congr (s t : State) (hclass : t.sigClass = s.sigClass)
    (hbytes : ∀ x, x < 0x400 → t.readByte x = s.readByte x) (k : Nat) : t.currentEM k = s.currentEM k := by
  have hL := digestLengthFor_le s.sigClass
  rw [State.currentEM_eq, State.currentEM_eq, hclass, State.readBytes_congr fun i hi => hbytes (0x060 + i) (by omega)]

end

/-- Settles O48: PFX and the digest take at most 51 of at least 256 bytes, and EM[0] is zero while N[0] is
not. -/
theorem encodedMessageHasItsShape : Obligations.EncodedMessageHasItsShape := by
  intro s k hkey
  refine ⟨hkey.length_currentEM, hkey.os2ip_currentEM_lt, padLength s.sigClass k, hkey.le_padLength,
    fun h => ?_, fun h => ?_, pkcsHashIdFor_of_size hkey.size⟩
  · rw [State.currentEM_eq, h, digestLengthFor_of_sha1 h, digestInfo]
  · rw [State.currentEM_eq, h, digestLengthFor_of_sha256 h, digestInfo]

/-! ### The verifier (44_pkcs1 R173) -/

/-- X holds a signature of the current TAG and DIGEST; `State.signatureMatches_iff` ties it to the model. -/
def State.SignatureOk (s : State) (k : Nat) : Prop :=
  s.xValue k < s.modulus k ∧ i2osp (s.xValue k ^ 65537 % s.modulus k) k = s.currentEM k

/-- What Check3 resolves with operand length k; `State.KeyUsable.pkcsChecks` ties it to the model. -/
def State.pkcsOperands (s : State) (k : Nat) : PkcsOperands :=
  ⟨k, pkcsHashIdFor s.sigClass, s.window .digest (digestLengthFor s.sigClass)⟩

/-- The state that PKCS_VERIFY leaves on a usable key; `exec_pkcsVerify` ties it to the model. -/
def State.verified (k : Nat) (s : State) : State :=
  { s with result := s.signatureMatches (s.pkcsOperands k) }.completeScrubbed .none

theorem State.signatureMatches_iff (s : State) (k : Nat) :
    s.signatureMatches (s.pkcsOperands k) = true ↔ s.SignatureOk k := by
  rw [State.signatureMatches, rsaExp_eq _ _ ePub_lt, Bool.and_eq_true, decide_eq_true_iff, decide_eq_true_iff, ePub,
    State.SignatureOk, State.currentEM, State.pkcsOperands]

section
variable {s : State} {k : Nat}

theorem State.KeyUsable.pkcsChecks (h : s.KeyUsable k) : s.pkcsChecks = .ok (s.pkcsOperands k) := by
  obtain ⟨⟨k', hid, digest⟩, ho, rfl⟩ := State.pkcsChecks_of_ok h.rsaChecks
  obtain ⟨-, rfl, rfl⟩ := State.pkcsChecks_ok ho
  exact ho

theorem exec_pkcsVerify (h : s.KeyUsable k) : exec .pkcsVerify s = .next (s.verified k) := by
  simp only [exec, execPkcsVerify, h.pkcsChecks, State.verified]

theorem State.result_verified : (s.verified k).result = true ↔ s.SignatureOk k := s.signatureMatches_iff k

/-- The comparison of whole messages, said of their numbers. -/
theorem State.KeyUsable.signatureOk_iff (h : s.KeyUsable k) :
    s.SignatureOk k ↔ s.xValue k < s.modulus k ∧ s.xValue k ^ 65537 % s.modulus k = os2ip (s.currentEM k) :=
  and_congr_right' (i2osp_eq_iff (h.mod_lt _) h.length_currentEM)

end

/-- Settles O49: RESULT is what the comparison says, and the completion scrubs. -/
theorem verifyComparesTheWholeMessage : Obligations.VerifyComparesTheWholeMessage := by
  refine ⟨decode_encode .pkcsVerify, fun s k hkey => ?_⟩
  obtain ⟨hdone, hhost, hhash, -, hdraws⟩ := State.completeScrubbed_frame (s := s)
    (u := { s with result := s.signatureMatches (s.pkcsOperands k) }) rfl .none
  exact ⟨s.verified k, exec_pkcsVerify hkey, hdone, hhost, hhash, hdraws, State.result_verified,
    State.scrubbed_completeScrubbed _ _, fun x hx => State.readByte_completeScrubbed_outside _ _ hx⟩

/-! ### The signer (44_pkcs1 R174) -/

/-- The signature of the current TAG and DIGEST under the key in N and D; `exec_pkcsSign` ties it to the model. -/
def State.signature (s : State) (k : Nat) : Nat := os2ip (s.currentEM k) ^ s.exponent k % s.modulus k

/-- The state that PKCS_SIGN leaves on a usable key; `exec_pkcsSign` ties it to the model. -/
def State.signed (k : Nat) (s : State) : State :=
  (s.setWindow .x (i2osp (s.signature k) k)).completeScrubbed .none

section
variable {s : State} {k : Nat}

theorem exec_pkcsSign (h : s.KeyUsable k) (hd : s.dvalid = true) : exec .pkcsSign s = .next (s.signed k) := by
  rw [exec_pkcsSign_of_checks h.pkcsChecks hd, rsaExp_eq]
  · rfl
  · exact s.exponent_lt h.le

theorem State.xValue_signed (h : s.KeyUsable k) : (s.signed k).xValue k = s.signature k := by
  have hwindow : (s.signed k).window .x k = i2osp (s.signature k) k :=
    (State.readBytes_congr fun j _ => State.readByte_completeScrubbed_outside _ _
      (by simp only [Window.base]; omega)).trans (s.window_setWindow .x _ (length_i2osp _ _))
  rw [State.xValue, hwindow]
  exact (os2ip_be k _).trans (Nat.mod_eq_of_lt (h.mod_lt _))

theorem State.readByte_signed_outside {x : Nat} (hx : x < 0x400 ∨ 0x800 + k ≤ x) :
    (s.signed k).readByte x = s.readByte x := by
  rw [State.signed, State.readByte_completeScrubbed_outside _ _ (by omega)]
  exact s.readByte_storeBytes_outside _ _ _ (by rw [length_i2osp]; simp only [Window.base]; omega)

theorem State.signed_frame (s : State) (k : Nat) :
    s.CompletedAs (s.signed k) .none ∧ s.SameHostSide (s.signed k) ∧ s.SameHash (s.signed k) ∧
      (s.signed k).result = s.result ∧ (s.signed k).draws = s.draws :=
  State.completeScrubbed_frame (u := s.setWindow .x (i2osp (s.signature k) k)) rfl .none

theorem State.SameHostSide.sigClass {s t : State} (h : s.SameHostSide t) : t.sigClass = s.sigClass := by
  rw [State.sigClass, State.sigClass, h.cfg, h.tag]

theorem State.sigClass_signed : (s.signed k).sigClass = s.sigClass := by
  obtain ⟨-, hhost, -⟩ := s.signed_frame k
  exact hhost.sigClass

end

/-- Settles O50: EM^D mod N fits X[0..k), where the engine stores it before the scrub. -/
theorem signRaisesTheEncodedMessage : Obligations.SignRaisesTheEncodedMessage := by
  refine ⟨decode_encode .pkcsSign, fun s k hkey hd => ?_⟩
  obtain ⟨hdone, hhost, hhash, hresult, hdraws⟩ := s.signed_frame k
  exact ⟨s.signed k, exec_pkcsSign hkey hd, hdone, hhost, hhash, hresult, hdraws, State.xValue_signed hkey,
    State.scrubbed_completeScrubbed _ _, fun x => State.readByte_signed_outside⟩

/-! ### Signing, then verifying (44_pkcs1 R176 (a)) -/

theorem State.currentEM_reloadN (t : State) (bs : List Byte) (k : Nat) :
    (t.setWindow .n bs).currentEM k = t.currentEM k :=
  State.currentEM_congr t (t.setWindow .n bs) rfl (fun x hx => t.readByte_storeBytes_outside _ bs x (.inl hx)) k

theorem State.currentEM_signed (s : State) (k : Nat) : (s.signed k).currentEM k = s.currentEM k :=
  State.currentEM_congr s _ State.sigClass_signed (fun _ hx => State.readByte_signed_outside (.inl hx)) k

/-- Under a consistent pair, the signature raised to 65537 is the encoded message again. -/
theorem State.KeyUsable.signatureOk_signed {s : State} {k : Nat} (h : s.KeyUsable k)
    (hpair : os2ip (s.currentEM k) ^ (65537 * s.exponent k) % s.modulus k = os2ip (s.currentEM k)) :
    ((s.signed k).setWindow .n (s.window .n 512)).SignatureOk k := by
  have hreload := h.reloadN (t := s.signed k) State.sigClass_signed
  rw [hreload.signatureOk_iff, State.xValue_reloadN _ (length_window s .n 512), State.modulus_reloadN s _ h.le,
    State.xValue_signed h, State.currentEM_reloadN, State.currentEM_signed, State.signature, pow_mod_pow_mod, hpair]
  exact ⟨Nat.mod_lt _ h.modulus_pos, rfl⟩

/-- Settles O51: the key is usable once N is reloaded, and X then holds a signature of the message. -/
theorem signThenVerifySucceeds : Obligations.SignThenVerifySucceeds := by
  intro s k hkey hd hpair
  exact ⟨s.signed k, _, exec_pkcsSign hkey hd, exec_pkcsVerify (hkey.reloadN State.sigClass_signed), rfl, rfl,
    State.result_verified.mpr (hkey.signatureOk_signed hpair)⟩

/-! ### A flipped bit (44_pkcs1 R176 (b)) -/

theorem xor_bit_ne (v : Byte) {b : Nat} (hb : b < 8) : v ^^^ 1#8 <<< b ≠ v := by
  have hbit : ∀ b < 8, 1#8 <<< b ≠ 0#8 := by decide
  exact fun h => hbit b hb (xor_left_eq_self_iff.mp h)

/-- A number that an exponent D brings back from its 65537th power is the D-th power of EM, if it is a signature. -/
theorem State.KeyUsable.xValue_eq_of_signatureOk {s : State} {k D : Nat} (h : s.KeyUsable k) (hs : s.SignatureOk k)
    (hD : s.xValue k ^ (65537 * D) % s.modulus k = s.xValue k) :
    s.xValue k = os2ip (s.currentEM k) ^ D % s.modulus k := by
  obtain ⟨-, hpow⟩ := h.signatureOk_iff.mp hs
  rw [← hpow, pow_mod_pow_mod, Nat.mul_comm D, hD]

theorem State.modulus_storeX (s : State) (v : Byte) {a k : Nat} (hk : k ≤ 512) (ha : 0x800 ≤ a) :
    (s.storeBytes a [v]).modulus k = s.modulus k :=
  congrArg os2ip (s.readBytes_storeBytes_outside _ _ _ _ (by simp only [Window.base]; omega))

theorem State.currentEM_storeX (s : State) (v : Byte) {a : Nat} (ha : 0x800 ≤ a) (k : Nat) :
    (s.storeBytes a [v]).currentEM k = s.currentEM k :=
  State.currentEM_congr s (s.storeBytes a [v]) rfl
    (fun x _ => s.readByte_storeBytes_outside a [v] x (.inl (by omega))) k

theorem State.KeyUsable.storeX {s : State} {a k : Nat} (h : s.KeyUsable k) (v : Byte) (ha : 0x800 ≤ a) :
    (s.storeBytes a [v]).KeyUsable k where
  size := h.size
  lead := by rw [s.readByte_storeBytes_outside _ _ _ (by omega)]; exact h.lead
  odd := by rw [s.modulus_storeX v h.le ha, h.odd]

/-- Another byte in X[0..k) makes another number. -/
theorem State.xValue_storeX_ne {s : State} {v : Byte} {j k : Nat} (hj : j < k) (hv : v ≠ s.readByte (0x800 + j)) :
    (s.storeBytes (0x800 + j) [v]).xValue k ≠ s.xValue k := by
  intro h
  have hbytes : (s.storeBytes (0x800 + j) [v]).readBytes 0x800 k = s.readBytes 0x800 k :=
    os2ip_injective (by simp) h
  have hbyte := State.readByte_eq_of_readBytes_eq hbytes (x := 0x800 + j) (by omega)
  exact hv (by simpa [State.readByte_storeBytes] using hbyte)

/-- Settles O52: were the second state's X a signature too, both would be the same power of the same EM. -/
theorem flippedSignatureBitFailsVerification : Obligations.FlippedSignatureBitFailsVerification := by
  rintro s _ t k j b D hkey hj hb rfl hD hD' hexec hresult
  have ha : 0x800 ≤ 0x800 + j := Nat.le_add_right _ _
  have hkey' := hkey.storeX (s.readByte (0x800 + j) ^^^ 1#8 <<< b) ha
  refine ⟨_, exec_pkcsVerify hkey', rfl, Bool.eq_false_iff.mpr fun hresult' => ?_⟩
  have hok : s.SignatureOk k := by
    rw [exec_pkcsVerify hkey] at hexec
    cases hexec
    exact State.result_verified.mp hresult
  have hok' := State.result_verified.mp hresult'
  have hx := hkey.xValue_eq_of_signatureOk hok hD
  have hmod := s.modulus_storeX (s.readByte (0x800 + j) ^^^ 1#8 <<< b) hkey.le ha
  have hx' := hkey'.xValue_eq_of_signatureOk hok' (by rw [hmod]; exact hD' (hmod ▸ hok'.1))
  rw [hmod, s.currentEM_storeX _ ha] at hx'
  exact State.xValue_storeX_ne hj (xor_bit_ne _ hb) (hx'.trans hx.symm)

end Sys2Proof.Machine
end

section
/-! PROOFS. Exceptions and completion (60_exceptions R200 to R209): which writes are dropped, what every completion leaves
alone, the engine's turn on a legal and on an illegal word, and that a command in flight comes to its completion. -/

namespace Sys2Proof.Machine

/-! ### Dropped writes (60_exceptions R209) -/

/-- A write to a hash data port is absorbed when the port is open, else dropped (41_digest R114, R115). -/
theorem busWrite_port_eq {off : Nat} (hoff : off = 0x028 ∨ off = 0x02C) (v : Word) (s : State) :
    ∃ bs, busWrite off v s = if s.portOpen then .next (s.absorbAll bs) else .next s.dropWrite := by
  rcases hoff with rfl | rfl
  · exact ⟨le32Bytes v, exec_of_portBytes (i := .hdata32 v) rfl s⟩
  · exact ⟨[v.extractLsb' 0 8], exec_of_portBytes (i := .hdata8 v) rfl s⟩

theorem State.portOpen_of_idle {s : State} (h : s.busy = false) : s.portOpen = s.hact := by
  rw [State.portOpen, h]; rfl

theorem busWrite_port_of_noContext {s : State} (hidle : s.busy = false) (hact : s.hact = false) {off : Nat}
    (hoff : off = 0x028 ∨ off = 0x02C) (v : Word) : busWrite off v s = .next s.dropWrite := by
  obtain ⟨bs, h⟩ := busWrite_port_eq hoff v s
  rw [h, State.portOpen_of_idle hidle, hact]; rfl

/-- An open port leaves PERR. -/
theorem busWrite_port_perr {s t : State} (hidle : s.busy = false) (hact : s.hact = true) {off : Nat}
    (hoff : off = 0x028 ∨ off = 0x02C) {v : Word} (h : busWrite off v s = .next t) : t.perr = s.perr := by
  obtain ⟨bs, he⟩ := busWrite_port_eq hoff v s
  rw [he, State.portOpen_of_idle hidle, if_pos hact] at h
  cases h
  rw [State.absorbAll_frame]

/-- With no command in flight only a port without a context sets PERR, and only STATUS clears it. -/
theorem busWrite_perr_of_idle {s t : State} (hidle : s.busy = false) {off : Nat} (h8 : off ≠ 0x008)
    (hport : off = 0x028 ∨ off = 0x02C → s.hact = true) {v : Word} (h : busWrite off v s = .next t) :
    t.perr = s.perr := by
  by_cases hoff : off = 0x028 ∨ off = 0x02C
  · exact busWrite_port_perr hidle (hport hoff) hoff h
  obtain ⟨-, hstatus, hport32, hport8⟩ := target_register_offset s.cfg off
  have hkept : s.dropsWrite off = false := State.dropsWrite_of_idle hidle off
  unfold busWrite at h
  cases htarget : target s.cfg off <;>
    simp only [htarget, hkept, Bool.false_eq_true, if_false, Host.Outcome.next.injEq] at h
  case status => exact absurd (hstatus htarget) h8
  case hdata32 => exact absurd (.inl (hport32 htarget)) hoff
  case hdata8 => exact absurd (.inr (hport8 htarget)) hoff
  case window => rw [← h, State.writeWindow_eq]; rfl
  all_goals subst h; rfl

/-- Settles O9: BUSY and a port without a context drop the write; otherwise the offset is CTRL or STATUS, or idle. -/
theorem writesAreDroppedInExactlyTwoCases : Obligations.WritesAreDroppedInExactlyTwoCases := by
  intro s off v _ _
  obtain ⟨t, ht⟩ := busWrite_next off v s
  refine ⟨t, ht, fun hdrop => ?_, fun hkept => ⟨fun h8 => ?_, fun h8 => ?_⟩, ?_⟩
  · apply Host.Outcome.next.inj
    rw [← ht]
    rcases hdrop with ⟨hb, h4, h8⟩ | ⟨hidle, hact, hport⟩
    · exact busWrite_of_busy hb h4 h8 v
    · exact busWrite_port_of_noContext hidle hact hport v
  · obtain ⟨hbusy, hclosed⟩ := not_or.mp hkept
    by_cases h4 : off = 0x004
    · subst h4; cases ht; rfl
    have hidle : s.busy = false := Bool.eq_false_iff.mpr fun hb => hbusy ⟨hb, h4, h8⟩
    exact busWrite_perr_of_idle hidle h8
      (fun hport => eq_true_of_ne_false fun hact => hclosed ⟨hidle, hact, hport⟩) ht
  · subst h8; cases ht
    rw [State.writeStatus_perr, Bool.and_eq_true]
    exact And.left
  · rw [State.busRead_frame]

/-! ### What every completion leaves alone (60_exceptions R205, R206) -/

/-- The bytes of KEY and REF at their block offsets, which no command writes (10_state R33, R36). -/
def InKeyOrRef (x : Nat) : Prop := (0x040 ≤ x ∧ x < 0x050) ∨ (0x080 ≤ x ∧ x < 0x0A0)

/-- u is s but for what a command computes before it completes: RESULT, DVALID, the hash context, free values taken and
window bytes outside KEY and REF. -/
structure State.Computes (s u : State) : Prop where
  frame : u =
    { s with
      hact := u.hact, dvalid := u.dvalid, result := u.result, halg := u.halg, mem := u.mem, h := u.h, hbuf := u.hbuf
      hlen := u.hlen, draws := u.draws }
  bytes : ∀ x, InKeyOrRef x → u.readByte x = s.readByte x

/-- A store into IV, DIGEST, X or DBUF reaches no byte of KEY and REF. -/
theorem State.readByte_setWindow_of_inKeyOrRef (s : State) {w : Window} {bs : List Byte}
    (hw : w = .iv ∨ w = .digest ∨ w = .x ∨ w = .dbuf) (hl : bs.length ≤ w.size s.cfg) {x : Nat}
    (hx : InKeyOrRef x) : (s.setWindow w bs).readByte x = s.readByte x := by
  refine s.readByte_storeBytes_outside _ _ _ ?_
  unfold InKeyOrRef at hx
  rcases hw with rfl | rfl | rfl | rfl <;> simp only [Window.base, Window.size, Window.span] at hl ⊢ <;> omega

theorem State.EngineStores.computes {s u : State} (h : s.EngineStores u) : s.Computes u where
  frame := by rw [h.frame]
  bytes x hx := by
    induction h with
    | same => rfl
    | @store u w bs hu hw hl ih =>
      rw [u.readByte_setWindow_of_inKeyOrRef (by tauto) (by rw [hu.frame]; exact hl) hx, ih]

theorem State.Computes.withResult {s u : State} (h : s.Computes u) (r : Bool) : s.Computes { u with result := r } where
  frame := by rw [h.frame]
  bytes x hx := (State.readByte_congr (s := u) rfl rfl x).trans (h.bytes x hx)

theorem State.Computes.scrub {s u : State} (h : s.Computes u) : s.Computes u.scrub where
  frame := by rw [h.frame]; rfl
  bytes x hx := by
    unfold InKeyOrRef at hx
    rw [State.readByte_scrub, if_neg (by omega), h.bytes x hx]

theorem State.computes_startHash (s : State) (alg : HashAlg) : s.Computes (s.startHash alg) where
  frame := rfl
  bytes := fun _ _ => rfl

theorem State.computes_finishHash (s : State) : s.Computes s.finishHash := by
  obtain ⟨bs, hl, he⟩ := s.finishHash_frame
  rw [he]
  exact ⟨rfl, fun x hx => (State.readByte_congr (s := s.setWindow .digest bs) rfl rfl x).trans
    (s.readByte_setWindow_of_inKeyOrRef (.inr (.inl rfl)) hl.le hx)⟩

/-- A command's effect is one completion after what it computes. -/
theorem Effect.completes {s t : State} {i : Instr} (h : Effect s i t) (hi : portBytes i = none) :
    ∃ u c, s.Computes u ∧ t = u.complete c := by
  have hself : s.Computes s := State.EngineStores.same.computes
  cases h with
  | completed c _ hu => exact ⟨_, c, hu.computes, rfl⟩
  | scrubbed r c _ hu _ => exact ⟨_, c, (hu.computes.withResult r).scrub, rfl⟩
  | hashStarted _ _ => exact ⟨_, .none, s.computes_startHash _, rfl⟩
  | hashFinished _ => exact ⟨_, .none, s.computes_finishHash, rfl⟩
  | compared r => exact ⟨_, .none, hself.withResult r, rfl⟩
  | absorbed hp _ => exact absurd (hi.symm.trans hp) nofun
  | dropped hp _ => exact absurd (hi.symm.trans hp) nofun

theorem State.Computes.sameHostSide {s u : State} (h : s.Computes u) (c : ErrCode) :
    s.SameHostSide (u.complete c) := by
  rw [h.frame]; constructor <;> rfl

theorem State.Computes.completedAs {s u : State} (h : s.Computes u) (c : ErrCode) :
    s.CompletedAs (u.complete c) c :=
  s.completedAs_complete u (by rw [h.frame]) c

/-- Settles O24: the effect of a command is a completion, which sets DONE, so that IRQ is IE. -/
theorem everyCommandCompletesAtomically : Obligations.EveryCommandCompletesAtomically := by
  intro s i hi
  obtain ⟨t, ht⟩ := exec_next i s
  obtain ⟨u, c, hu, rfl⟩ := (exec_effect ht).completes hi
  have hhost := hu.sameHostSide c
  refine ⟨_, c, ht, hu.completedAs c, ?_, hhost, hu.bytes⟩
  rw [State.irq, hhost.ie, State.complete_done, Bool.and_true]

/-! ### The engine's turn (60_exceptions R204, R205, R207) -/

theorem engineTurn_of_legal {s : State} {w : Word} {i : Instr} (hp : s.pending = some w)
    (hi : decode { off := 0x00C, data := w } = .ok i) : engineTurn s = exec i s := by
  simp only [engineTurn, hp, cmdOffset, hi]

theorem engineTurn_of_illegal {s : State} {w : Word} {r : Reject} (hp : s.pending = some w)
    (hr : decode { off := 0x00C, data := w } = .error r) : engineTurn s = .next (s.raise .illegalCmd) := by
  simp only [engineTurn, hp, cmdOffset, hr]

theorem step_of_turns_cons {s : State} {t : Turn} {ts : List Turn} (h : s.turns = t :: ts) :
    step s = takeTurn t { s with turns := ts } := by
  rw [step, h]

/-- With a command in flight and the schedule used up the engine moves (log 5). -/
theorem step_of_turns_nil {s : State} {w : Word} (hp : s.pending = some w) (h : s.turns = []) :
    step s = engineTurn s := by
  have hnext : s.nextTurn = some .engine := if_pos (by rw [State.busy_eq, hp]; rfl)
  simp only [step, h, hnext, takeTurn]

/-- Settles O5: an engine turn runs what the decoder reads from the word in flight, which the schedule is no part of. -/
theorem stepRunsTheCommandInFlight : Obligations.StepRunsTheCommandInFlight := by
  intro s w i hp hi
  refine ⟨fun ts hturns => ?_, fun hturns => ?_⟩
  · rw [step_of_turns_cons hturns]
    exact engineTurn_of_legal (s := { s with turns := ts }) hp hi
  · rw [step_of_turns_nil hp hturns, engineTurn_of_legal hp hi]

/-- A word outside the table is rejected by the decoder (30_encoding R82). -/
theorem decode_illegal {w : Word} (hw : w ∉ commands.map encodeData) :
    ∃ r, decode { off := 0x00C, data := w } = .error r := by
  cases h : decode { off := 0x00C, data := w } with
  | error r => exact ⟨r, rfl⟩
  | ok i =>
    have hencode : encodeOffset i = cmdOffset ∧ encodeData i = w := BusWord.mk.inj (encode_of_decode h)
    obtain ⟨hoff, hdata⟩ := hencode
    exact absurd (List.mem_map.mpr ⟨i, (mem_commands_iff i).mpr hoff, hdata⟩) hw

/-- Settles O4: the decoder rejects the word, and the engine's turn is then the error completion alone. -/
theorem illegalWordCompletesWithIllegalCmd : Obligations.IllegalWordCompletesWithIllegalCmd := by
  intro s ts w hturns hp hw
  obtain ⟨r, hr⟩ := decode_illegal (w := w) hw
  rw [step_of_turns_cons hturns, takeTurn, engineTurn_of_illegal (s := { s with turns := ts }) hp hr, State.raise,
    State.complete_of_ne_none (by decide)]

/-! ### A command in flight completes (60_exceptions R204; 70_reset R231) -/

/-- What the decoder reads from a command word is a command. -/
theorem portBytes_of_decode_cmd {w : Word} {i : Instr} (h : decode { off := 0x00C, data := w } = .ok i) :
    portBytes i = none := by
  have hoff : encodeOffset i = 0x00C := congrArg BusWord.off (encode_of_decode h)
  cases i
  case hdata32 => exact absurd hoff (by simp [encodeOffset, hdata32Offset])
  case hdata8 => exact absurd hoff (by simp [encodeOffset, hdata8Offset])
  all_goals rfl

/-- The engine's turn ends the command in flight, legal or not. -/
theorem engineTurn_completes {s : State} {w : Word} (hp : s.pending = some w) :
    ∃ t, engineTurn s = .next t ∧ t.pending = none ∧ t.done = true := by
  cases h : decode { off := 0x00C, data := w } with
  | error r => exact ⟨_, engineTurn_of_illegal hp h, rfl, rfl⟩
  | ok i =>
    obtain ⟨t, c, ht, hdone, -⟩ := everyCommandCompletesAtomically s i (portBytes_of_decode_cmd h)
    exact ⟨t, (engineTurn_of_legal hp h).trans ht, hdone.idle, hdone.done⟩

/-- The machine comes, within n steps, to a state with no command in flight and DONE set. -/
def State.CompletesWithin (s : State) (n : Nat) : Prop :=
  ∃ (k : Nat) (t : State), k ≤ n ∧ Host.Core.run Sys2Proof.core k s = .next t ∧ t.pending = none ∧ t.done = true

theorem State.completesWithin_of_engineTurn {s u : State} {w : Word} (hp : u.pending = some w)
    (h : step s = engineTurn u) (n : Nat) : s.CompletesWithin (n + 1) := by
  obtain ⟨t, ht, hidle, hdone⟩ := engineTurn_completes hp
  exact ⟨1, t, by omega, run_succ_of_step (h.trans ht) 0, hidle, hdone⟩

theorem State.CompletesWithin.of_step {s u : State} {n : Nat} (h : u.CompletesWithin n) (hstep : step s = .next u) :
    s.CompletesWithin (n + 1) := by
  obtain ⟨k, t, hk, hrun, hdone⟩ := h
  exact ⟨k + 1, t, by omega, (run_succ_of_step hstep k).trans hrun, hdone⟩

/-- A run of one step that is not stopped is a step that is not stopped. -/
theorem step_of_run_one {s u : State} (h : Host.Core.run Sys2Proof.core 1 s = .next u) : ∃ t, step s = .next t := by
  rcases step_next_or_busError s with hnext | ⟨a, -, hfault, -⟩
  · exact hnext
  · have hcore : Sys2Proof.core.step s = .fault (.busError a) := hfault
    simp only [Host.Core.run, hcore] at h
    cases h

/-- The schedule's turns are used up one by one: a host's turn leaves the command in flight, the engine's completes it,
and after the last the engine moves. -/
theorem State.completesWithin_turns (ts : List Turn) {s : State} {w : Word} (hturns : s.turns = ts)
    (hp : s.pending = some w) (hreset : Turn.reset ∉ ts)
    (hrun : ∀ n, n ≤ ts.length + 1 → ∃ u : State, Host.Core.run Sys2Proof.core n s = .next u) :
    s.CompletesWithin (ts.length + 1) := by
  induction ts generalizing s with
  | nil => exact completesWithin_of_engineTurn hp (step_of_turns_nil hp hturns) 0
  | cons x ts ih =>
    obtain ⟨hx, hrest⟩ := not_or.mp (List.mem_cons.not.mp hreset)
    cases x with
    | reset => exact absurd rfl hx
    | engine =>
      exact completesWithin_of_engineTurn (u := { s with turns := ts }) hp (step_of_turns_cons hturns) _
    | host m =>
      obtain ⟨_, hone⟩ := hrun 1 (by simp)
      obtain ⟨u, hu⟩ := step_of_run_one hone
      have hturn : hostTurn m { s with turns := ts } = .next u := (step_of_turns_cons hturns).symm.trans hu
      have hbusy : State.busy { s with turns := ts } = true := by rw [State.busy_eq, hp]; rfl
      have hsame := hostTurn_sameOperands hbusy hturn
      refine (ih (by rw [hsame]) (by rw [hsame]; exact hp) hrest fun n hn => ?_).of_step hu
      rw [← run_succ_of_step hu]
      exact hrun (n + 1) (Nat.succ_le_succ hn)

/-- Settles O56: by induction on the schedule. -/
theorem everyIssuedCommandCompletes : Obligations.EveryIssuedCommandCompletes := fun s _ hp hreset hrun =>
  State.completesWithin_turns s.turns rfl hp hreset hrun

end Sys2Proof.Machine
end

section
/-! PROOFS. Reset gives every piece of block state its reset value (70_reset R230 to R232), from which the invariant
starts, and an idle block waits (70_reset R233; 20_memory R55). -/

namespace Sys2Proof.Machine

/-! ### The windows after reset (10_state R33 to R38) -/

/-- Every byte below X has the stated reset value 0; only X and DBUF have none (10_state R39, R40). -/
theorem resetValue_below_x {a : Nat} (h : a < 0x800) : Memory.resetValue a = some 0 := by
  have hx : ¬ Window.x.covers a = true := fun hc => absurd h (Nat.not_lt.mpr ((Window.covers_iff _ a).mp hc).1)
  have hdbuf : ¬ Window.dbuf.covers a = true := fun hc =>
    absurd ((Window.covers_iff _ a).mp hc).1 (Nat.not_le.mpr (h.trans (by decide)))
  refine if_neg ?_
  rw [freeAtReset, Bool.or_eq_true]
  exact not_or.mpr ⟨hx, hdbuf⟩

/-- A store that lists no byte reads 0 below X. -/
theorem State.readByte_below_x_of_mem_nil {s : State} (hm : s.mem = []) {a : Nat} (h : a < 0x800) :
    s.readByte a = 0 := by
  simp only [State.readByte, hm, Memory.lookup, resetValue_below_x h]

/-! ### The registers that are computed -/

/-- STATUS reads 0 after reset, in every field (70_reset R232). -/
theorem State.statusWord_resetBlock (s : State) : s.resetBlock.statusWord = 0 := by
  simp [State.statusWord, HashAlg.code, ErrCode.code]

/-- A tag that the map does not list is INVALID (40_registry R91). -/
theorem classIn_of_unmapped {es : List (Word × SigClass)} {t : Word} (h : ∀ e ∈ es, e.1 ≠ t) :
    classIn es t = .invalid := by
  induction es with
  | nil => rfl
  | cons e es ih =>
    obtain ⟨he, hes⟩ := List.forall_mem_cons.mp h
    rw [classIn, if_neg he, ih hes]

/-- TAG is 0 after reset, so REGINFO shows a class only under a map that lists the tag 0. -/
theorem State.reginfo_resetBlock {s : State} (h : ∀ e ∈ s.cfg.sigtypeMap, e.1 ≠ 0) : s.resetBlock.reginfo = 0 := by
  have hclass : s.resetBlock.sigClass = .invalid := classIn_of_unmapped h
  rw [State.reginfo, hclass, reginfoOf_eq]

/-! ### The statements about reset -/

/-- Settles O22: the turn is `State.resetBlock`, whose registers are the reset values and whose store lists no byte. -/
theorem resetSetsEveryPieceOfState : Obligations.ResetSetsEveryPieceOfState := by
  intro s ts hturns
  refine ⟨State.resetBlock { s with turns := ts }, step_of_turns_cons hturns, rfl, rfl, rfl, rfl, rfl, rfl, rfl, rfl,
    rfl, rfl, rfl, rfl, rfl, rfl, rfl, rfl, rfl, rfl, fun x hx => ?windows, rfl, State.statusWord_resetBlock _,
    fun htag => ?reginfo, rfl, rfl⟩
  case windows => exact State.readByte_below_x_of_mem_nil rfl (by omega)
  case reginfo => exact State.reginfo_resetBlock (s := { s with turns := ts }) htag

/-- With no context, no command in flight, an empty store and DVALID 0, each part of the invariant but the parameters'
is about nothing or about a byte of D, which reads 0. -/
theorem State.inv_resetWith {c : Config} (h : c.wellFormed = true) : (State.resetWith c).Inv where
  config := h
  store := ⟨Memory.wf_reset, nofun⟩
  hash := ⟨fun _ => rfl, nofun, nofun, nofun⟩
  flags := nofun
  secret := fun _ a ha => State.readByte_below_x_of_mem_nil rfl ((Window.covers_iff .d a).mp ha).2

/-- Settles O54: the default parameters are legal too. -/
theorem resetHasTheInvariant : Obligations.ResetHasTheInvariant :=
  ⟨State.inv_resetWith (c := Config.default) (by decide), fun _ => State.inv_resetWith⟩

/-! ### An idle block (70_reset R233) -/

/-- No master is ready exactly when none has a statement left. -/
theorem firstReady_eq_none_iff (ms : List Master) : firstReady ms = none ↔ ∀ x ∈ ms, x.prog = [] := by
  induction ms with
  | nil => simp [firstReady]
  | cons m ms ih =>
    rw [firstReady, List.forall_mem_cons, ← ih]
    cases hp : m.prog <;> simp

/-- It is nobody's turn exactly when no command is in flight and no master has a statement left (log 5). -/
theorem State.nextTurn_eq_none_iff (s : State) :
    s.nextTurn = none ↔ s.pending = none ∧ ∀ x ∈ s.masters, x.prog = [] := by
  rw [← firstReady_eq_none_iff, State.nextTurn, State.busy_eq]
  cases s.pending <;> simp

theorem step_of_nextTurn_none {s : State} (hturns : s.turns = []) (h : s.nextTurn = none) : step s = .next s := by
  simp only [step, hturns, h]

/-- Settles O57: on a used-up schedule it is nobody's turn, and the state after reset is such a state. -/
theorem idleBlockWaits : Obligations.IdleBlockWaits := by
  have hwaits : ∀ s : State, s.turns = [] → s.pending = none → (∀ x ∈ s.masters, x.prog = []) → step s = .next s :=
    fun s hturns hp hprog => step_of_nextTurn_none hturns (s.nextTurn_eq_none_iff.mpr ⟨hp, hprog⟩)
  exact ⟨hwaits, hwaits State.reset rfl rfl nofun⟩

end Sys2Proof.Machine
end
